-- ==== Sys2Proof/Word.lean ====
section
/-! DEFINITION. The words and the port types of the AD9833 register encoder and write-order
sequencer (RES): register words, halves, tuning words, phase words (spec 00_scope.md R7, R9), the
command record of the command port (30_encoding.md R80 to R83) and the front end's parsed lines
(R88, R89). -/

namespace Sys2Proof

/-- A 16-bit register word, what one `Write16` carries (R7, R51). -/
abbrev Word := BitVec 16
/-- One 14-bit half of a tuning word (R7). -/
abbrev Half := BitVec 14
/-- A 28-bit tuning word (R7). -/
abbrev TuningWord := BitVec 28
/-- A 12-bit phase word (R7). -/
abbrev PhaseWord := BitVec 12
/-- A channel, 0 or 1 (R7, R27). -/
abbrev Chan := BitVec 1
/-- One byte of a word on the wire (R53). -/
abbrev Byte := BitVec 8

/-- The closed set of waveform modes (R7, R26). -/
inductive WaveformMode where
  | sine
  | triangle
  | square
  deriving DecidableEq, Repr

/-- The four commands (R81); also what `seq_op` holds (R24). -/
inductive Op where
  | init
  | setFreq
  | setMode
  | shutdown
  deriving DecidableEq, Repr

/-- The record the host presents on the command port (R80 to R83). A field the host gives no value
has its default; the phase defaults to 0 (R82). -/
structure CommandRecord where
  op      : BitVec 2
  clockHz : Rat := 0
  freqHz  : Rat := 0
  chan    : Chan := 0
  phase   : Int := 0
  mode    : BitVec 2 := 0
  deriving DecidableEq, Repr

/-- A front-end line after parsing: `sine|triangle|square <freq_hz>` (R88), `exit` and `quit` (R89). -/
inductive FrontEndLine where
  | waveform (m : WaveformMode) (freqHz : Rat)
  | exit
  | quit
  deriving DecidableEq, Repr

/-- One item of the host's stream (R61): a command record or a front-end line. -/
inductive PortItem where
  | command (r : CommandRecord)
  | line (l : FrontEndLine)
  deriving DecidableEq, Repr

/-- What stands where the next step finds its instruction: an item of the host's stream (input
language, R80), or a register word of the running sequence (output language, R70). -/
inductive Encoded where
  | port (p : PortItem)
  | word (w : Word)
  deriving DecidableEq, Repr

/-- Why a register word is no instruction of RES: R74, "Every other 16-bit value is never emitted". -/
inductive DecodeError where
  /-- `w[15:14] = 11` with `w[13:12]` not `00`: the phase spaces RES never addresses (R73). -/
  | notThePhaseSpace (w : Word)
  /-- `w[15:14] = 00` and no CTRL word RES composes (R71, R74). -/
  | noControlWord (w : Word)
  deriving DecidableEq, Repr

/-- The word a decode error is about. -/
def DecodeError.word : DecodeError → Word
  | .notThePhaseSpace w => w
  | .noControlWord w => w

end Sys2Proof
end

