-- ==== Sys2Proof/Config.lean ====
section
/-! DEFINITION. The configuration of one RES (00_scope.md R6; 10_state.md R36): the parameters the
source leaves to the implementation, as a record every meaning takes as an argument (it is carried in
`State.cfg`, which no step writes), the record holding the third column of R6's table, and the one
parameter that is a type, `TransportCause`. -/

namespace Sys2Proof

/-- `P_ROUND`: the tie rule of the tuning-word rounding (R6, R10; 93 U1). -/
inductive Rounding where
  | halfEven
  | halfUp
  deriving DecidableEq, Repr

/-- The type `CsId` of chip-select identifiers (R6). Nothing but equality is ever asked of one; the
token makes it plain data. DESIGN CHOICE, log entry 4. -/
structure CsId where
  token : Nat
  deriving DecidableEq, Repr, Inhabited

/-- The configuration record (R6). -/
structure Config where
  /-- `P_ROUND` -/
  round : Rounding
  /-- `P_B28` -/
  b28 : Word
  /-- `P_FSELECT` -/
  fselect : Word
  /-- `P_RESET_BIT` -/
  resetBit : Word
  /-- `P_MODE_BITS(Sine)` -/
  modeSine : Word
  /-- `P_MODE_BITS(Triangle)` -/
  modeTriangle : Word
  /-- `P_MODE_BITS(Square)` -/
  modeSquare : Word
  /-- `P_RESET_WORD` -/
  resetWord : Word
  /-- `P_CS_ID` -/
  csId : CsId
  deriving DecidableEq, Repr

/-- The value of `P_CS_ID`: R6 takes an "opaque constant of type `CsId`", so nothing can be proved of
it (93 U7). Log entry 4. -/
opaque Config.chipSelect : CsId

/-- The third column of R6's table. -/
def Config.standard : Config where
  round := .halfEven
  b28 := 0x2000
  fselect := 0x0800
  resetBit := 0x0100
  modeSine := 0x0000
  modeTriangle := 0x0002
  modeSquare := 0x0028
  resetWord := 0x0100
  csId := Config.chipSelect

/-- Which tokens besides 0 are transport causes: the parameter that fixes the type `TransportCause`. It has
no body, so every meaning and every statement is about whatever type the implementation's causes form.
Log entry 4. -/
opaque Config.isCause : Nat → Bool

/-- The parameter `TransportCause`, R6's "opaque type" (93 U6): what a failed write reports. It has at
least one cause, or no write could fail (R55); nothing else can be proved of which there are. RES asks
nothing of a cause: it stores it, hands it to the host and logs it. -/
structure TransportCause where
  token : Nat
  admitted : token = 0 ∨ Config.isCause token = true
  deriving DecidableEq, Repr

/-- The cause a token stands for; a token that is none stands for the cause 0. -/
def TransportCause.ofToken (n : Nat) : TransportCause :=
  if h : n = 0 ∨ Config.isCause n = true then ⟨n, h⟩ else ⟨0, .inl rfl⟩

/-- The control-word parameters have the values of R6's third column; `P_ROUND` and `P_CS_ID` are
free. -/
abbrev Config.TableValues (c : Config) : Prop :=
  c.b28 = 0x2000 ∧ c.fselect = 0x0800 ∧ c.resetBit = 0x0100 ∧ c.modeSine = 0x0000 ∧
    c.modeTriangle = 0x0002 ∧ c.modeSquare = 0x0028 ∧ c.resetWord = 0x0100

end Sys2Proof
end

