-- ==== Sys2Proof/Machine/State.lean ====
section
/-! DEFINITION. The state of RES (10_state.md R20 to R33), its value at construction (R39), and the
reasons a step can stop. Beside the spec's registers the state holds the configuration (R36), the
inputs the host and the transport supply (R14, R55) and the outputs a run is observed by (R34, R56);
INVENTORY.md lists each. -/

namespace Sys2Proof.Machine

/-- `ctl`, the controller state (R21). -/
inductive Ctl where
  | uninit
  | ready
  | reset
  deriving DecidableEq, Repr

/-- `seq`, the sequencer phase (R22). -/
inductive SeqPhase where
  | idle
  | busy
  deriving DecidableEq, Repr

/-- `status`, the response code (R33, R180). -/
inductive Status where
  | none
  | ok
  | configError
  | outOfRange
  | transportError
  | protocolStateError
  deriving DecidableEq, Repr

/-- The four error kinds (R180). -/
inductive ErrorKind where
  | configError
  | outOfRange
  | transportError
  | protocolStateError
  deriving DecidableEq, Repr

/-- The transport's answer to one `Write16` (R51, R55). -/
inductive Answer where
  | ok
  | err (cause : TransportCause)
  deriving DecidableEq, Repr

/-- `dev`, the DeviceState (R26 to R29): mode, active channel, last-set frequency and phase of each
channel. -/
structure DeviceState where
  mode   : WaveformMode
  chan   : Chan
  freq0  : Rat
  freq1  : Rat
  phase0 : PhaseWord
  phase1 : PhaseWord
  deriving DecidableEq, Repr

/-- The defaults of DeviceState: mode Sine, channel 0, frequencies 0, phases 0 (R39, R132, R135). -/
def DeviceState.defaults : DeviceState where
  mode := .sine
  chan := 0
  freq0 := 0
  freq1 := 0
  phase0 := 0
  phase1 := 0

/-- `pend`, the commit record (R25). -/
structure Pend where
  ctl   : Ctl
  dev   : DeviceState
  clock : Option Rat
  deriving DecidableEq, Repr

/-- `seq_words[0..4]`, five words (R24). -/
structure SeqWords where
  w0 : Word
  w1 : Word
  w2 : Word
  w3 : Word
  w4 : Word
  deriving DecidableEq, Repr

/-- One triple of the write trace (R56): the chip select, the word and the transport's answer. -/
structure WriteEvent where
  cs     : CsId
  word   : Word
  answer : Answer
  deriving DecidableEq, Repr

/-- The response registers as one command end left them (R33, R56). -/
structure Response where
  status   : Status
  errStep  : BitVec 3
  errCause : Option TransportCause
  deriving DecidableEq, Repr

/-- An event of the log output: an error kind with its info (R34). Only SHUTDOWN logs, and only
these two kinds (R135, R143). -/
inductive LogEvent where
  | protocolStateError
  | transportError (step : BitVec 3) (cause : TransportCause)
  deriving DecidableEq, Repr

/-- Why a step stops with a fault. None can be met from a state that satisfies `Inv` (Safety.lean). -/
inductive Fault where
  /-- The encoder's `TW_RAW` was applied to a clock that is not positive, or to no clock at all
  (SET_FREQ in `READY` with `clock = NONE`). R101: "a model must fault (never return a value)". Raised
  by `twRaw` and by SET_FREQ's rule; safe (log entry 9). -/
  | clockOutsideDomain
  /-- `seq = BUSY` and `step` is none of the five indices of `seq_words` (R23, R24). Raised by `step`;
  safe (log entry 9). -/
  | stepOutsideSequence
  deriving DecidableEq, Repr

/-- Why an instruction is refused. -/
inductive Refusal where
  /-- An instruction without a meaning yet. No arm of `exec` answers it; safe. -/
  | notModelled (mnemonic : String)
  /-- An encoder operand outside its type: a frequency payload wider than 14 bits, or a channel that is
  neither 0 nor 1. R105: "a model that admits a wider payload must refuse it". Raised by
  `checkedFreqRegisterWord`; no decoded word carries such an operand; safe (log entry 10). -/
  | operandOutsideType
  deriving DecidableEq, Repr

/-- The state. -/
structure State where
  /-- Configuration (R36), written by no step. -/
  cfg        : Config
  /-- R21 -/
  ctl        : Ctl
  /-- R22 -/
  seq        : SeqPhase
  /-- R23, 3 bits -/
  step       : BitVec 3
  /-- R24 -/
  seqWords   : SeqWords
  /-- R24, 1 to 5 -/
  seqLen     : BitVec 3
  /-- R24 -/
  seqOp      : Op
  /-- R25 -/
  pend       : Pend
  /-- R26 to R29 -/
  dev        : DeviceState
  /-- R31; `none` is the spec's own `NONE` -/
  clock      : Option Rat
  /-- R33 -/
  status     : Status
  /-- R33, 0 to 5 -/
  errStep    : BitVec 3
  /-- R33; `none` is the spec's own `none` -/
  errCause   : Option TransportCause
  /-- Input: the reset input is asserted and not yet taken (R210). -/
  resetInput : Bool
  /-- Input: the host's stream, the item presented on the command port first (R61, R80). -/
  port       : List PortItem
  /-- Input: the transport's answers, the next one first; empty while it has not answered (R55). -/
  answers    : List Answer
  /-- Output: the write trace, oldest first (R56). -/
  trace      : List WriteEvent
  /-- Output: the response registers after each command end, oldest first (R56). -/
  responses  : List Response
  /-- Output: the log, oldest first (R34). -/
  log        : List LogEvent
  deriving DecidableEq, Repr

/-- Every field as at construction (R39), under a configuration. `seq_words`, `seq_len`, `seq_op` and
`pend` are "unspecified, never read while `IDLE`" (R39, 93 U9): the values here are a DESIGN CHOICE,
log entry 1. Nothing is presented, answered, written or logged yet. -/
def State.constructed (cfg : Config) : State where
  cfg := cfg
  ctl := .uninit
  seq := .idle
  step := 0
  seqWords := ⟨0, 0, 0, 0, 0⟩
  seqLen := 0
  seqOp := .init
  pend := ⟨.uninit, .defaults, none⟩
  dev := .defaults
  clock := none
  status := .none
  errStep := 0
  errCause := none
  resetInput := false
  port := []
  answers := []
  trace := []
  responses := []
  log := []

/-- The machine right after reset: construction (R39, R210) under the parameter values of R6. -/
def State.reset : State := State.constructed Config.standard

end Sys2Proof.Machine
end

