-- ==== Sys2Proof/Machine/Flags.lean ====
section
/-! DEFINITION. The response registers, "the only flags RES has" (10_state.md R33), and taking an
error, RES's only exception (60_exceptions.md R187 to R190). -/

namespace Sys2Proof.Machine

/-- The numeric code of a status (R180). -/
def Status.code : Status → BitVec 3
  | .none => 0
  | .ok => 1
  | .configError => 2
  | .outOfRange => 3
  | .transportError => 4
  | .protocolStateError => 5

/-- The status an error kind is reported as (R180). -/
def ErrorKind.status : ErrorKind → Status
  | .configError => .configError
  | .outOfRange => .outOfRange
  | .transportError => .transportError
  | .protocolStateError => .protocolStateError

/-- The end of a command: the three response registers are overwritten together, the command port
becomes ready again (R33, R84), and the response is observable (R56). -/
def State.respond (s : State) (st : Status) (k : BitVec 3) (c : Option TransportCause) : State :=
  { s with
    status := st
    errStep := k
    errCause := c
    seq := .idle
    responses := s.responses ++ [⟨st, k, c⟩] }

/-- Entry into an error (R188): it writes `status`, `err_step`, `err_cause` and sets `seq = IDLE`; it
writes nothing else. There is no return from it: the next command is accepted as usual (R190). -/
def State.takeError (s : State) (e : ErrorKind) (k : BitVec 3) (c : Option TransportCause) : State :=
  s.respond e.status k c

/-- The end of a command without an error: `status <- OK`, `err_step <- 0`, `err_cause <- none`. -/
def State.endOk (s : State) : State := s.respond .ok 0 none

end Sys2Proof.Machine
end

