-- ==== Sys2Proof/Machine/Encoder.lean ====
section
/-! DEFINITION. The Register Encoder (40_encoder.md R100 to R117): pure functions of their operands
and of the configuration. -/

namespace Sys2Proof.Machine

/-! ## Rounding and clamping (00_scope.md R10) -/

/-- `frac(x) = x - floor(x)`. -/
def frac (x : Rat) : Rat := x - x.floor

/-- `round_HALF_EVEN`. -/
def roundHalfEven (x : Rat) : Int :=
  if frac x < 1 / 2 then x.floor
  else if 1 / 2 < frac x then x.floor + 1
  else if x.floor % 2 = 0 then x.floor
  else x.floor + 1

/-- `round_HALF_UP`: `floor(x + 1/2)`. -/
def roundHalfUp (x : Rat) : Int := (x + 1 / 2).floor

/-- `round_P`, the one `P_ROUND` selects. -/
def roundP : Rounding → Rat → Int
  | .halfEven => roundHalfEven
  | .halfUp => roundHalfUp

/-- `clamp(v, lo, hi)`. -/
def clamp (v lo hi : Int) : Int := min (max v lo) hi

/-! ## Frequency tuning word -/

/-- The largest tuning word, `2^28 - 1`. -/
def maxTuningWord : Int := 2 ^ 28 - 1

/-- `TW_RAW(f, clk)` (R101), a fault outside `clk > 0`. -/
def twRaw (r : Rounding) (f clk : Rat) : Except Fault Int :=
  if clk ≤ 0 then .error .clockOutsideDomain
  else .ok (roundP r (f * 2 ^ 28 / clk))

/-- A raw value clamped to 28 bits (R102). -/
def clampTuningWord (raw : Int) : TuningWord := BitVec.ofInt 28 (clamp raw 0 maxTuningWord)

/-- `tuning_word(f, clk)` (R102). -/
def tuningWord (r : Rounding) (f clk : Rat) : Except Fault TuningWord :=
  match twRaw r f clk with
  | .error e => .error e
  | .ok raw => .ok (clampTuningWord raw)

/-- `split_tuning_word`'s `lsb14`, `word[13:0]` (R103). -/
def lsb14 (w : TuningWord) : Half := w.extractLsb' 0 14

/-- `split_tuning_word`'s `msb14`, `word[27:14]` (R103). -/
def msb14 (w : TuningWord) : Half := w.extractLsb' 14 14

/-- `split_tuning_word` (R103). -/
def splitTuningWord (w : TuningWord) : Half × Half := (lsb14 w, msb14 w)

/-- `(msb14 << 14) | lsb14`, the value the chip reassembles (R75, R104). -/
def reassemble (lsb msb : Half) : TuningWord := (msb.setWidth 28 <<< 14) ||| lsb.setWidth 28

/-- `f_actual`, the frequency the chip produces for a tuning word (R114). PRESUMED by the spec (93 G6,
from general knowledge); no step reads it. -/
def actualFrequency (tw : TuningWord) (clk : Rat) : Rat := tw.toNat * clk / 2 ^ 28

/-! ## Register words -/

/-- `FREQ_PREFIX` (R105, R7). -/
def freqPrefix (ch : Chan) : Word := if ch = 1 then 0x8000 else 0x4000

/-- `freq_register_word(payload, channel, is_msb)` (R105); `is_msb` is not read. -/
def freqRegisterWord (payload : Half) (ch : Chan) (_isMsb : Bool) : Word :=
  freqPrefix ch ||| payload.setWidth 16

/-- `freq_register_word` applied to numbers: refused where the payload is wider than 14 bits or the
channel is neither 0 nor 1 (R105, R117; 93 U11). -/
def checkedFreqRegisterWord (payload ch : Nat) (isMsb : Bool) : Except Refusal Word :=
  if payload < 2 ^ 14 ∧ ch < 2 then
    .ok (freqRegisterWord (BitVec.ofNat 14 payload) (BitVec.ofNat 1 ch) isMsb)
  else .error .operandOutsideType

/-- `MODE_BITS(mode)` (R106). -/
def modeBits (cfg : Config) : WaveformMode → Word
  | .sine => cfg.modeSine
  | .triangle => cfg.modeTriangle
  | .square => cfg.modeSquare

/-- `phase mod 4096`, the field of the PHASE word (R76). -/
def phaseField (p : Int) : PhaseWord := BitVec.ofInt 12 p

/-- `phase_register_word(phase)` (R107). -/
def phaseRegisterWord (p : Int) : Word := 0xC000 ||| (phaseField p).setWidth 16

/-- The frequency-select term of a control word: `P_FSELECT` when channel 1 (R108). -/
def fselectBits (cfg : Config) (ch : Chan) : Word := if ch = 1 then cfg.fselect else 0

/-- `control_word(mode, channel)` (R108). -/
def controlWord (cfg : Config) (m : WaveformMode) (ch : Chan) : Word :=
  cfg.b28 ||| modeBits cfg m ||| fselectBits cfg ch

/-- `reset_qualified_word(mode, channel)` (R109). -/
def resetQualifiedWord (cfg : Config) (m : WaveformMode) (ch : Chan) : Word :=
  cfg.resetBit ||| controlWord cfg m ch

/-- `reset_word()` (R110). -/
def resetWord (cfg : Config) : Word := cfg.resetWord

/-- The two bytes of a word in wire order, `w[15:8]` before `w[7:0]` (20_memory.md R53). The transport
sends them, not RES: no step reads this. -/
def wireBytes (w : Word) : List Byte := [w.extractLsb' 8 8, w.extractLsb' 0 8]

end Sys2Proof.Machine
end

