-- ==== Sys2Proof/Machine/Operands.lean ====
section
/-! DEFINITION. Operand forms: the codes of the small registers and fields (10_state.md R21, R26;
30_encoding.md R83), the per-channel fields of DeviceState and their singular views (R28 to R30), the
words of a sequence by index (R24), and the range checks of the commands (60_exceptions.md R181 to
R183). -/

namespace Sys2Proof.Machine

/-- The code of `ctl` (R21). -/
def Ctl.code : Ctl → BitVec 2
  | .uninit => 0b00
  | .ready => 0b01
  | .reset => 0b10

/-- The code of a waveform mode, in `dev.mode` and in SET_MODE's operand (R26, R83). -/
def modeCode : WaveformMode → BitVec 2
  | .sine => 0b00
  | .triangle => 0b01
  | .square => 0b10

/-- The mode a code names; `11` names none (R83). -/
def modeOfCode (c : BitVec 2) : Option WaveformMode :=
  if c = 0b00 then some .sine
  else if c = 0b01 then some .triangle
  else if c = 0b10 then some .square
  else none

/-! ## DeviceState by channel -/

/-- `dev.freq[c]` (R28). -/
def DeviceState.freq (d : DeviceState) (c : Chan) : Rat := if c = 1 then d.freq1 else d.freq0

/-- `dev.phase[c]` (R29). -/
def DeviceState.phase (d : DeviceState) (c : Chan) : PhaseWord := if c = 1 then d.phase1 else d.phase0

/-- `dev.chan: c, dev.freq[c]: f, dev.phase[c]: p` (R133); the other channel is untouched. -/
def DeviceState.setChannel (d : DeviceState) (c : Chan) (f : Rat) (p : PhaseWord) : DeviceState :=
  { d with
    chan := c
    freq0 := if c = 1 then d.freq0 else f
    freq1 := if c = 1 then f else d.freq1
    phase0 := if c = 1 then d.phase0 else p
    phase1 := if c = 1 then p else d.phase1 }

/-- The source's `DeviceState.active_channel` (R30). -/
def DeviceState.activeChannel (d : DeviceState) : Chan := d.chan

/-- The source's `DeviceState.frequency` (R30). -/
def DeviceState.frequency (d : DeviceState) : Rat := d.freq d.chan

/-- The source's `DeviceState.phase` (R30). -/
def DeviceState.activePhase (d : DeviceState) : PhaseWord := d.phase d.chan

/-! ## The words of a sequence -/

/-- `seq_words[k]` (R24); there are five. -/
def SeqWords.get (v : SeqWords) : Nat → Option Word
  | 0 => some v.w0
  | 1 => some v.w1
  | 2 => some v.w2
  | 3 => some v.w3
  | 4 => some v.w4
  | _ => none

/-- `seq_words[0..len(ws)-1] <- ws` (R131); later words keep their value. -/
def SeqWords.load (v : SeqWords) (ws : List Word) : SeqWords where
  w0 := ws.getD 0 v.w0
  w1 := ws.getD 1 v.w1
  w2 := ws.getD 2 v.w2
  w3 := ws.getD 3 v.w3
  w4 := ws.getD 4 v.w4

/-- The words in the order they must be written (R24). -/
def SeqWords.toList (v : SeqWords) : List Word := [v.w0, v.w1, v.w2, v.w3, v.w4]

/-! ## Range checks -/

/-- A clock INIT admits: `clock_hz > 0` (R132, R181). -/
def clockAdmitted (clk : Rat) : Bool := decide (0 < clk)

/-- `0 < freq_hz`, SET_FREQ's first range check (R133, R182 (a)). -/
def freqPositive (f : Rat) : Bool := decide (0 < f)

/-- "resulting tuning word fits 28 bits", on the unclamped value (R133, R182 (b)). -/
def rawFits (raw : Int) : Bool := decide (raw ≤ maxTuningWord)

/-- SET_FREQ admits the phase: 0 to 4095 (R133, R182 (c)). -/
def phaseAdmitted (p : Int) : Bool := decide (0 ≤ p ∧ p ≤ 4095)

end Sys2Proof.Machine
end

