-- ==== Sys2Proof/Machine/Ops.lean ====
section
/-! DEFINITION. The named operations every meaning is written over: the acceptance of a command
(41_sequencer.md R130, R131, R136), the write step (R138 to R140) with commit, abort and the end of
SHUTDOWN (R141 to R143), the reset event (70_reset_and_hazards.md R210) and the host's query
(10_state.md R32). -/

namespace Sys2Proof.Machine

/-! ## Elementary updates -/

/-- `log(e)` (R34). -/
def State.emit (s : State) (e : LogEvent) : State := { s with log := s.log ++ [e] }

/-- The host's stream after the presented item was taken. -/
def State.withPort (s : State) (items : List PortItem) : State := { s with port := items }

/-- The `Run` outcome of acceptance (R131): the words and the commit record are staged, `step <- 0`,
`seq <- BUSY`. -/
def State.startSequence (s : State) (op : Op) (ws : List Word) (p : Pend) : State :=
  { s with
    seqWords := s.seqWords.load ws
    seqLen := BitVec.ofNat 3 ws.length
    seqOp := op
    pend := p
    step := 0
    seq := .busy }

/-- `Write16(P_CS_ID, w)` answered with `a`: the transport's next answer is taken and the triple joins
the write trace (R51, R56). -/
def State.recordWrite (s : State) (w : Word) (a : Answer) (rest : List Answer) : State :=
  { s with trace := s.trace ++ [⟨s.cfg.csId, w, a⟩], answers := rest }

/-- `step <- step + 1` (R139). -/
def State.advance (s : State) : State := { s with step := s.step + 1 }

/-- `ctl <- pend.ctl`, `dev <- pend.dev`, `clock <- pend.clock` (R141). -/
def State.applyPend (s : State) : State :=
  { s with ctl := s.pend.ctl, dev := s.pend.dev, clock := s.pend.clock }

/-- `ctl <- RESET`, `dev <- pend.dev`, `clock <- NONE` (R143). -/
def State.enterReset (s : State) : State :=
  { s with ctl := .reset, dev := s.pend.dev, clock := none }

/-- The reset event (R210): every register as at construction (R39) and nothing written to the
transport. The configuration, what the host and the transport supply and what was observed so far are
not registers of RES and stay; the reset input is taken. Log entry 6. -/
def State.takeReset (s : State) : State :=
  { State.constructed s.cfg with
    port := s.port
    answers := s.answers
    trace := s.trace
    responses := s.responses
    log := s.log }

/-! ## Acceptance (R130, R131) -/

/-- What a command's rule decides (R131). -/
inductive AcceptOutcome where
  | reject (e : ErrorKind)
  | doneNoWrite (ev : LogEvent)
  | run (ws : List Word) (p : Pend)
  deriving DecidableEq, Repr

/-- The three outcomes of acceptance, carried out (R131, R136). -/
def State.takeOutcome (s : State) (op : Op) : AcceptOutcome → State
  | .reject e => s.takeError e 0 none
  | .doneNoWrite ev => (s.emit ev).endOk
  | .run ws p => s.startSequence op ws p

/-- Acceptance of a command whose rule gave `outcome`. The port is ready exactly when `seq = IDLE`; while
`seq = BUSY` the host holds its command and RES takes no command step (R130). `rest` is the host's stream
once the command is taken. -/
def acceptCommand (op : Op) (outcome : Except Fault AcceptOutcome) (rest : List PortItem) (s : State) :
    Host.Outcome State Fault Refusal :=
  match s.seq with
  | .busy => .next s
  | .idle =>
    match outcome with
    | .error f => .fault f
    | .ok o => .next ((s.withPort rest).takeOutcome op o)

/-! ## The write step (R138 to R143) -/

/-- `seq_words[step]`, the word RES hands to the transport while `seq = BUSY` (R138); there is none
while `seq = IDLE`. -/
def State.scheduledWord (s : State) : Option Word :=
  match s.seq with
  | .idle => none
  | .busy => s.seqWords.get s.step.toNat

/-- Commit (R141). -/
def State.commit (s : State) : State := s.applyPend.endOk

/-- Abort at write `step` (R142): `err_step` is the 1-based number of the failed write. -/
def State.abort (s : State) (c : TransportCause) : State :=
  s.takeError .transportError (s.step + 1) (some c)

/-- The end of SHUTDOWN, whatever the answer; an error is logged (R143). -/
def State.endShutdown (s : State) : Answer → State
  | .ok => s.enterReset.endOk
  | .err c => (s.enterReset.emit (.transportError 1 c)).endOk

/-- The answer `OK` (R139): the step index advances, and the last word's answer ends the command. -/
def State.takeOk (s : State) : State :=
  if s.step + 1 = s.seqLen then
    match s.seqOp with
    | .shutdown => s.advance.endShutdown .ok
    | .init => s.advance.commit
    | .setFreq => s.advance.commit
    | .setMode => s.advance.commit
  else s.advance

/-- The answer `ERR(cause)` (R142, R143). -/
def State.takeErr (s : State) (c : TransportCause) : State :=
  match s.seqOp with
  | .shutdown => s.endShutdown (.err c)
  | .init => s.abort c
  | .setFreq => s.abort c
  | .setMode => s.abort c

/-- The effect of the transport's answer to the current write. -/
def State.takeAnswer (s : State) : Answer → State
  | .ok => s.takeOk
  | .err c => s.takeErr c

/-- The write step for the word `w`. RES issues `seq_words[step]` and "no other word" (R138), so with any
other word, and while `seq = IDLE`, it takes no step (log entry 11). While the transport has not
answered, it takes no step either (R140). -/
def writeStep (w : Word) (s : State) : Host.Outcome State Fault Refusal :=
  if s.scheduledWord = some w then
    match s.answers with
    | [] => .next s
    | a :: rest => .next ((s.recordWrite w a rest).takeAnswer a)
  else .next s

/-- The write step for a word an encoder operation gave; the operation's refusal is the instruction's. -/
def writeStepChecked (w : Except Refusal Word) (s : State) : Host.Outcome State Fault Refusal :=
  match w with
  | .error r => .refused r
  | .ok w => writeStep w s

/-! ## The host's side of the port (R22, R32) -/

/-- The command port is ready exactly when `seq = IDLE` (R130). -/
def State.portReady (s : State) : Bool := decide (s.seq = .idle)

/-- What the host reads at any time (R32): the committed state and the response registers. -/
structure HostView where
  ctl      : Ctl
  dev      : DeviceState
  clock    : Option Rat
  status   : Status
  errStep  : BitVec 3
  errCause : Option TransportCause
  deriving DecidableEq, Repr

/-- The host's query (R32); nothing staged is in it. -/
def State.hostView (s : State) : HostView where
  ctl := s.ctl
  dev := s.dev
  clock := s.clock
  status := s.status
  errStep := s.errStep
  errCause := s.errCause

end Sys2Proof.Machine
end

