-- ==== Sys2Proof/Machine/Commands.lean ====
section
/-! DEFINITION. The four commands (41_sequencer.md R132 to R135): each one's rule, judged and staged
against the committed state, and its meaning, the acceptance of that rule's outcome. The words of a
sequence are computed here, at acceptance, and never again (R137). -/

namespace Sys2Proof.Machine

/-- INIT's words (R132). -/
def initWords (cfg : Config) : List Word := [resetWord cfg, controlWord cfg .sine 0]

/-- INIT's commit record (R132). -/
def initPend (clk : Rat) : Pend := ⟨.ready, .defaults, some clk⟩

/-- INIT's rule (R132). -/
def initRule (s : State) (clk : Rat) : AcceptOutcome :=
  if s.ctl = .ready then .reject .protocolStateError
  else if clockAdmitted clk then .run (initWords s.cfg) (initPend clk)
  else .reject .configError

/-- INIT (R132). -/
def execInit (clk : Rat) (s : State) : Host.Outcome State Fault Refusal :=
  acceptCommand .init (.ok (initRule s clk)) s.port.tail s

/-- SET_FREQ's five words, in write order (R133). -/
def setFreqWords (cfg : Config) (m : WaveformMode) (c : Chan) (tw : TuningWord) (p : Int) : List Word :=
  [resetQualifiedWord cfg m c,
   freqRegisterWord (lsb14 tw) c false,
   freqRegisterWord (msb14 tw) c true,
   phaseRegisterWord p,
   controlWord cfg m c]

/-- SET_FREQ's commit record (R133). -/
def setFreqPend (s : State) (f : Rat) (c : Chan) (p : Int) : Pend :=
  ⟨.ready, s.dev.setChannel c f (phaseField p), s.clock⟩

/-- SET_FREQ's rule (R133), the checks in the order of R187. -/
def setFreqRule (s : State) (f : Rat) (c : Chan) (p : Int) : Except Fault AcceptOutcome :=
  if s.ctl ≠ .ready then .ok (.reject .protocolStateError)
  else if !freqPositive f then .ok (.reject .outOfRange)
  else
    match s.clock with
    | none => .error .clockOutsideDomain
    | some clk =>
      match twRaw s.cfg.round f clk with
      | .error e => .error e
      | .ok raw =>
        if !rawFits raw then .ok (.reject .outOfRange)
        else if !phaseAdmitted p then .ok (.reject .outOfRange)
        else .ok (.run (setFreqWords s.cfg s.dev.mode c (clampTuningWord raw) p) (setFreqPend s f c p))

/-- SET_FREQ (R133). -/
def execSetFreq (f : Rat) (c : Chan) (p : Int) (s : State) : Host.Outcome State Fault Refusal :=
  acceptCommand .setFreq (setFreqRule s f c p) s.port.tail s

/-- SET_MODE's one word (R134). -/
def setModeWords (s : State) (m : WaveformMode) : List Word := [controlWord s.cfg m s.dev.chan]

/-- SET_MODE's commit record (R134). -/
def setModePend (s : State) (m : WaveformMode) : Pend := ⟨s.ctl, { s.dev with mode := m }, s.clock⟩

/-- SET_MODE's rule (R134). -/
def setModeRule (s : State) (code : BitVec 2) : AcceptOutcome :=
  if s.ctl ≠ .ready then .reject .protocolStateError
  else
    match modeOfCode code with
    | none => .reject .outOfRange
    | some m => .run (setModeWords s m) (setModePend s m)

/-- SET_MODE (R134). -/
def execSetMode (code : BitVec 2) (s : State) : Host.Outcome State Fault Refusal :=
  acceptCommand .setMode (.ok (setModeRule s code)) s.port.tail s

/-- SHUTDOWN's commit record (R135). -/
def shutdownPend : Pend := ⟨.reset, .defaults, none⟩

/-- SHUTDOWN's rule (R135). -/
def shutdownRule (s : State) : AcceptOutcome :=
  if s.ctl ≠ .ready then .doneNoWrite .protocolStateError
  else .run [resetWord s.cfg] shutdownPend

/-- SHUTDOWN (R135). -/
def execShutdown (s : State) : Host.Outcome State Fault Refusal :=
  acceptCommand .shutdown (.ok (shutdownRule s)) s.port.tail s

end Sys2Proof.Machine
end

