-- ==== Sys2Proof/Machine/FrontEnd.lean ====
section
/-! DEFINITION. The front end's pseudo-instructions (30_encoding.md R88, R89). A waveform line stands
for two commands: the step that takes the line accepts the first, and the second is then what the host
presents next (log entry 7). `exit` and `quit` stand for one SHUTDOWN. -/

namespace Sys2Proof.Machine

/-- The second command of a waveform line: `SETFREQ <freq_hz>, 0, 0` (R88), as a record with SET_FREQ's
op code (R81). -/
def lineSetFreq (f : Rat) : PortItem := .command { op := 0b01, freqHz := f, chan := 0, phase := 0 }

/-- A waveform line: `SETMODE <m>` is accepted and `SETFREQ <freq_hz>, 0, 0` is presented next (R88). -/
def takeWaveformLine (m : WaveformMode) (f : Rat) (s : State) : Host.Outcome State Fault Refusal :=
  acceptCommand .setMode (.ok (setModeRule s (modeCode m))) (lineSetFreq f :: s.port.tail) s

/-- `sine <freq_hz>` (R88). -/
def execSine (f : Rat) (s : State) : Host.Outcome State Fault Refusal := takeWaveformLine .sine f s

/-- `triangle <freq_hz>` (R88). -/
def execTriangle (f : Rat) (s : State) : Host.Outcome State Fault Refusal :=
  takeWaveformLine .triangle f s

/-- `square <freq_hz>` (R88). -/
def execSquare (f : Rat) (s : State) : Host.Outcome State Fault Refusal := takeWaveformLine .square f s

/-- `exit`: SHUTDOWN (R89). -/
def execExit (s : State) : Host.Outcome State Fault Refusal :=
  acceptCommand .shutdown (.ok (shutdownRule s)) s.port.tail s

/-- `quit`: SHUTDOWN (R89). -/
def execQuit (s : State) : Host.Outcome State Fault Refusal :=
  acceptCommand .shutdown (.ok (shutdownRule s)) s.port.tail s

end Sys2Proof.Machine
end

