-- ==== Sys2Proof/Machine/Words.lean ====
section
/-! DEFINITION. The six kinds of register word (30_encoding.md R70 to R74): the meaning of each is the
write step that hands the word its encoder operation gives (40_encoder.md R105 to R110) to the
transport. -/

namespace Sys2Proof.Machine

/-- The write of `control_word(m, c)` (R108). -/
def execControlWord (m : WaveformMode) (c : Chan) (s : State) : Host.Outcome State Fault Refusal :=
  writeStep (controlWord s.cfg m c) s

/-- The write of `reset_qualified_word(m, c)` (R109). -/
def execResetQualifiedWord (m : WaveformMode) (c : Chan) (s : State) :
    Host.Outcome State Fault Refusal :=
  writeStep (resetQualifiedWord s.cfg m c) s

/-- The write of `reset_word()` (R110). -/
def execResetWord (s : State) : Host.Outcome State Fault Refusal := writeStep (resetWord s.cfg) s

/-- The write of a channel-0 frequency register word (R105); a payload wider than 14 bits is refused.
The word does not say which half it carries, so `is_msb` is of no account (R72). -/
def execFreq0 (payload : Nat) (s : State) : Host.Outcome State Fault Refusal :=
  writeStepChecked (checkedFreqRegisterWord payload 0 false) s

/-- The write of a channel-1 frequency register word (R105). -/
def execFreq1 (payload : Nat) (s : State) : Host.Outcome State Fault Refusal :=
  writeStepChecked (checkedFreqRegisterWord payload 1 false) s

/-- The write of `phase_register_word(p)` (R107). -/
def execPhase (p : Int) (s : State) : Host.Outcome State Fault Refusal :=
  writeStep (phaseRegisterWord p) s

end Sys2Proof.Machine
end

