-- ==== Sys2Proof/Syntax.lean ====
section
/-! DEFINITION. The instructions: one constructor per row of spec/opcode_table.json. The four
commands (30_encoding.md R81), the five front-end pseudo-instructions (R88, R89) and the six kinds of
register word RES hands to the transport (R70 to R74; 40_encoder.md R105 to R110). -/

namespace Sys2Proof

/-- The instructions of RES. -/
inductive Instr where
  /-- INIT (R132): `initialize(transport, clock_hz)`. -/
  | init (clockHz : Rat)
  /-- SET_FREQ (R133): `set_frequency(freq_hz, channel, phase)`. -/
  | setFreq (freqHz : Rat) (chan : Chan) (phase : Int)
  /-- SET_MODE (R134): `set_waveform_mode(mode)`; the operand is the 2-bit code of R83, `11` too. -/
  | setMode (mode : BitVec 2)
  /-- SHUTDOWN (R135): `shutdown()`. -/
  | shutdown
  /-- `sine <freq_hz>` (R88). -/
  | sine (freqHz : Rat)
  /-- `triangle <freq_hz>` (R88). -/
  | triangle (freqHz : Rat)
  /-- `square <freq_hz>` (R88). -/
  | square (freqHz : Rat)
  /-- `exit` (R89). -/
  | exit
  /-- `quit` (R89). -/
  | quit
  /-- The write of `control_word(mode, channel)` (R108). -/
  | controlWord (mode : WaveformMode) (chan : Chan)
  /-- The write of `reset_qualified_word(mode, channel)` (R109). -/
  | resetQualifiedWord (mode : WaveformMode) (chan : Chan)
  /-- The write of `reset_word()` (R110). -/
  | resetWord
  /-- The write of a channel-0 frequency register word (R105); the payload is a `u14`. -/
  | freq0 (payload : Nat)
  /-- The write of a channel-1 frequency register word (R105); the payload is a `u14`. -/
  | freq1 (payload : Nat)
  /-- The write of a phase register word (R107); the operand is an `Int`, masked to 12 bits. -/
  | phase (phase : Int)
  deriving DecidableEq, Repr

end Sys2Proof
end

