-- ==== Sys2Proof/Machine/Dispatch.lean ====
section
/-! DEFINITION. Dispatch: one arm per instruction, one call of its meaning. -/

namespace Sys2Proof.Machine

def exec (i : Instr) (s : State) : Host.Outcome State Fault Refusal :=
  match i with
  -- commands
  | .init clk => Sys2Proof.Machine.execInit clk s
  | .setFreq f c p => Sys2Proof.Machine.execSetFreq f c p s
  | .setMode code => Sys2Proof.Machine.execSetMode code s
  | .shutdown => Sys2Proof.Machine.execShutdown s
  -- front-end pseudo-instructions
  | .sine f => Sys2Proof.Machine.execSine f s
  | .triangle f => Sys2Proof.Machine.execTriangle f s
  | .square f => Sys2Proof.Machine.execSquare f s
  | .exit => Sys2Proof.Machine.execExit s
  | .quit => Sys2Proof.Machine.execQuit s
  -- register words
  | .controlWord m c => Sys2Proof.Machine.execControlWord m c s
  | .resetQualifiedWord m c => Sys2Proof.Machine.execResetQualifiedWord m c s
  | .resetWord => Sys2Proof.Machine.execResetWord s
  | .freq0 payload => Sys2Proof.Machine.execFreq0 payload s
  | .freq1 payload => Sys2Proof.Machine.execFreq1 payload s
  | .phase p => Sys2Proof.Machine.execPhase p s

end Sys2Proof.Machine
end

