-- ==== Sys2Proof/WellFormed.lean ====
section
/-! DEFINITION. Which instructions are well formed: every operand fits the field its encoding has for
it (40_encoder.md R105, R117; 30_encoding.md R73). Operands the command record carries whole (clock,
frequency, phase of SET_FREQ, mode code) have no such check: the commands themselves judge them
(R82, R83). -/

namespace Sys2Proof

/-- A frequency payload fits 14 bits (R105, R117). -/
def payloadFits (payload : Nat) : Bool := decide (payload < 2 ^ 14)

/-- A phase fits the 12-bit field of the PHASE word (R73). -/
def phaseFits (phase : Int) : Bool := decide (0 ≤ phase ∧ phase ≤ 4095)

/-- Every operand fits its field. -/
def Instr.wf : Instr → Bool
  | .init _ => true
  | .setFreq _ _ _ => true
  | .setMode _ => true
  | .shutdown => true
  | .sine _ => true
  | .triangle _ => true
  | .square _ => true
  | .exit => true
  | .quit => true
  | .controlWord _ _ => true
  | .resetQualifiedWord _ _ => true
  | .resetWord => true
  | .freq0 payload => payloadFits payload
  | .freq1 payload => payloadFits payload
  | .phase p => phaseFits p

end Sys2Proof
end

