-- ==== Sys2Proof/Decode.lean ====
section
/-! DEFINITION. The decoder and the encoder of both languages of RES (30_encoding.md): commands and
front-end lines (input, R80 to R89), register words (output, R70 to R76). The register-word tables are
the configuration's (R6), so both directions take it. -/

namespace Sys2Proof

/-! ## Commands and front-end lines (R81, R88, R89) -/

/-- The op code of a command (R81). -/
def Op.code : Op → BitVec 2
  | .init => 0b00
  | .setFreq => 0b01
  | .setMode => 0b10
  | .shutdown => 0b11

/-- The command an op code names; all four codes are commands (R81). -/
def opOfCode (c : BitVec 2) : Op :=
  if c = 0b00 then .init
  else if c = 0b01 then .setFreq
  else if c = 0b10 then .setMode
  else .shutdown

/-- A command record, decoded: fields its op does not use are ignored (R81). -/
def decodeCommand (r : CommandRecord) : Instr :=
  match opOfCode r.op with
  | .init => .init r.clockHz
  | .setFreq => .setFreq r.freqHz r.chan r.phase
  | .setMode => .setMode r.mode
  | .shutdown => .shutdown

/-- A front-end line, decoded (R88, R89). -/
def decodeLine : FrontEndLine → Instr
  | .waveform .sine f => .sine f
  | .waveform .triangle f => .triangle f
  | .waveform .square f => .square f
  | .exit => .exit
  | .quit => .quit

/-- An item of the host's stream, decoded. -/
def decodePort : PortItem → Instr
  | .command r => decodeCommand r
  | .line l => decodeLine l

/-! ## Register words (R70 to R74) -/

/-- The CTRL words RES composes (R74), in the order R74 lists them. -/
def ctrlInstrs : List Instr :=
  [.controlWord .sine 0, .controlWord .triangle 0, .controlWord .square 0,
   .controlWord .sine 1, .controlWord .triangle 1, .controlWord .square 1,
   .resetQualifiedWord .sine 0, .resetQualifiedWord .triangle 0, .resetQualifiedWord .square 0,
   .resetQualifiedWord .sine 1, .resetQualifiedWord .triangle 1, .resetQualifiedWord .square 1,
   .resetWord]

/-- The word of a register-word instruction (R105 to R110); `none` for the others. -/
def wordOf (cfg : Config) : Instr → Option Word
  | .init _ => none
  | .setFreq _ _ _ => none
  | .setMode _ => none
  | .shutdown => none
  | .sine _ => none
  | .triangle _ => none
  | .square _ => none
  | .exit => none
  | .quit => none
  | .controlWord m ch => some (Machine.controlWord cfg m ch)
  | .resetQualifiedWord m ch => some (Machine.resetQualifiedWord cfg m ch)
  | .resetWord => some (Machine.resetWord cfg)
  | .freq0 p => some (Machine.freqRegisterWord (BitVec.ofNat 14 p) 0 false)
  | .freq1 p => some (Machine.freqRegisterWord (BitVec.ofNat 14 p) 1 false)
  | .phase p => some (Machine.phaseRegisterWord p)

/-- A register word, decoded: bits 15:14 select the format (R70). -/
def decodeWord (cfg : Config) (w : Word) : Except DecodeError Instr :=
  if w.extractLsb' 14 2 = 0b01 then .ok (.freq0 (w.extractLsb' 0 14).toNat)
  else if w.extractLsb' 14 2 = 0b10 then .ok (.freq1 (w.extractLsb' 0 14).toNat)
  else if w.extractLsb' 14 2 = 0b11 then
    if w.extractLsb' 12 2 = 0b00 then .ok (.phase (w.extractLsb' 0 12).toNat)
    else .error (.notThePhaseSpace w)
  else
    match ctrlInstrs.find? (fun i => decide (wordOf cfg i = some w)) with
    | some i => .ok i
    | none => .error (.noControlWord w)

/-- Decoding, total on both languages. -/
def decode (cfg : Config) : Encoded → Except DecodeError Instr
  | .port p => .ok (decodePort p)
  | .word w => decodeWord cfg w

/-! ## The encoder -/

/-- The encoding of an instruction, from the tables of R71 to R76 and R81 to R89. A field a command does
not use is 0. -/
def encode (cfg : Config) : Instr → Encoded
  | .init clk => .port (.command { op := Op.init.code, clockHz := clk })
  | .setFreq f c p => .port (.command { op := Op.setFreq.code, freqHz := f, chan := c, phase := p })
  | .setMode m => .port (.command { op := Op.setMode.code, mode := m })
  | .shutdown => .port (.command { op := Op.shutdown.code })
  | .sine f => .port (.line (.waveform .sine f))
  | .triangle f => .port (.line (.waveform .triangle f))
  | .square f => .port (.line (.waveform .square f))
  | .exit => .port (.line .exit)
  | .quit => .port (.line .quit)
  | .controlWord m ch => .word (Machine.controlWord cfg m ch)
  | .resetQualifiedWord m ch => .word (Machine.resetQualifiedWord cfg m ch)
  | .resetWord => .word (Machine.resetWord cfg)
  | .freq0 p => .word (Machine.freqRegisterWord (BitVec.ofNat 14 p) 0 false)
  | .freq1 p => .word (Machine.freqRegisterWord (BitVec.ofNat 14 p) 1 false)
  | .phase p => .word (Machine.phaseRegisterWord p)

/-- The CTRL words of a configuration are told apart by their values, and all have bits 15:14 clear
(R52, R70): what a decoder of emitted words needs of the parameters. R6's values have it. -/
def unambiguous (cfg : Config) : Bool :=
  ctrlInstrs.all (fun i =>
    match wordOf cfg i with
    | some w => decide (w.extractLsb' 14 2 = 0b00)
    | none => false) &&
  decide (ctrlInstrs.map (wordOf cfg)).Nodup

/-! ## The opcode table's own numbering -/

/-- The command record whose bits the opcode table gives: the 2-bit op code, every operand field 0
(R81); no other bit has a place in the table. -/
def recordOfTableBits (w : Nat) : CommandRecord := { op := BitVec.ofNat 2 w }

/-- The instruction decoded from an opcode-table word: 16 bits are a register word under the parameter
values of R6, at most 8 bits are a command's op code. -/
def decodeTableWord (nbits w : Nat) : Option Instr :=
  if nbits = 16 then
    if w < 2 ^ 16 then (decodeWord Config.standard (BitVec.ofNat 16 w)).toOption else none
  else if nbits ≤ 8 then
    if w < 4 then some (decodeCommand (recordOfTableBits w)) else none
  else none

end Sys2Proof
end

