-- ==== Sys2Proof/Machine/Fetch.lean ====
section
/-! DEFINITION. Where the next instruction stands. There is no instruction memory: the program of RES
is the host's command stream (20_memory.md R61), and `step` is the only thing that plays the part of a
program counter (10_state.md R23). -/

namespace Sys2Proof.Machine

/-- The next instruction's encoding: the item presented on the command port while `seq = IDLE`,
`seq_words[step]` while `seq = BUSY` (R130, R138). -/
def fetch (s : State) : Option Encoded :=
  match s.seq with
  | .idle => s.port.head?.map .port
  | .busy => s.scheduledWord.map .word

/-- What a step does where nothing stands: while `seq = IDLE` no command is presented and RES waits
(R211); while `seq = BUSY` the step index is outside `seq_words`. -/
def stepNothing (s : State) : Host.Outcome State Fault Refusal :=
  match s.seq with
  | .idle => .next s
  | .busy => .fault .stepOutsideSequence

/-- The bits of a word of `nbits` bits, placed for the next step: a register word as the one word of a
running sequence, with the answer `OK` waiting; a command record at the head of the host's stream. The
reset input is not asserted. Log entry 8. -/
def placeTableWord (s : State) (nbits w : Nat) : State :=
  if nbits = 16 then
    { s with
      seq := .busy
      step := 0
      seqWords := s.seqWords.load [BitVec.ofNat 16 w]
      seqLen := 1
      answers := .ok :: s.answers
      resetInput := false }
  else
    { s with
      seq := .idle
      port := .command (recordOfTableBits w) :: s.port
      resetInput := false }

end Sys2Proof.Machine
end

