-- ==== Sys2Proof/Machine/Step.lean ====
section
/-! DEFINITION. One step of RES: the reset event (70_reset_and_hazards.md R210), the acceptance of the
presented command, or one answered write (R224: "one step per accepted command and one per answered
write"). -/

namespace Sys2Proof.Machine

/-- One step. A word of the running sequence that is no word of R74 is handed over all the same: R138
makes no difference. -/
def step (s : State) : Host.Outcome State Fault Refusal :=
  if s.resetInput then .next s.takeReset
  else
    match fetch s with
    | none => stepNothing s
    | some e =>
      match decode s.cfg e with
      | .ok i => exec i s
      | .error d => writeStep d.word s

/-- `s` with an opcode-table word stored where the next step finds its instruction. -/
def State.withFetchWord (s : State) (nbits w : Nat) : State := placeTableWord s nbits w

end Sys2Proof.Machine
end

