-- ==== Sys2Proof/Safety.lean ====
section
/-! DEFINITION. What counts as a safe run: a step stops for no reason of its own, and the state keeps
the properties the spec states of every state of RES (10_state.md R28, R31, R33, R37, R38;
41_sequencer.md R137; 70_reset_and_hazards.md R212). -/

namespace Sys2Proof.Machine

/-- A step went on: neither a fault nor a refusal. -/
def goesOn : Host.Outcome State Fault Refusal → Prop
  | .next _ => True
  | .fault _ => False
  | .refused _ => False

/-- "While `ctl = READY`, `clock` is never `NONE`" and holds a positive frequency (R31); outside `READY`,
`clock = NONE` and `dev` is at its defaults (R212). -/
def ClockInv (s : State) : Prop :=
  (s.ctl = .ready → ∃ clk, s.clock = some clk ∧ 0 < clk) ∧
  (s.ctl ≠ .ready → s.clock = none ∧ s.dev = .defaults)

/-- The trace entries of the words of the running sequence that were answered `OK`: the first `step`
words. -/
def deliveredEvents (s : State) : List WriteEvent :=
  (s.seqWords.toList.take s.step.toNat).map (fun w => ⟨s.cfg.csId, w, .ok⟩)

/-- "While `seq = BUSY`: `0 <= step < seq_len <= 5`, and `step` words of `seq_words` have been answered
`OK`" (R38). -/
def SequenceInv (s : State) : Prop :=
  s.seq = .busy →
    s.step.toNat < s.seqLen.toNat ∧ s.seqLen.toNat ≤ 5 ∧ deliveredEvents s <:+ s.trace

/-- The rule of the command `op` gives the outcome `o` in the state `s`, for some operands (R131). -/
def RuleGives (s : State) (op : Op) (o : AcceptOutcome) : Prop :=
  match op with
  | .init => ∃ clk, initRule s clk = o
  | .setFreq => ∃ f c p, setFreqRule s f c p = .ok o
  | .setMode => ∃ code, setModeRule s code = o
  | .shutdown => shutdownRule s = o

/-- While `seq = BUSY`, the words and the commit record are those the running command's rule gives in
the committed state, which does not change until the command ends (R137: "the words are the same as if
computed at each step"). -/
def StagedInv (s : State) : Prop :=
  s.seq = .busy → ∃ ws, RuleGives s s.seqOp (.run ws s.pend) ∧
    s.seqLen.toNat = ws.length ∧ s.seqWords.toList.take s.seqLen.toNat = ws

/-- "Whenever `seq = IDLE` and the last command ended with `status = OK` and `ctl = READY`, the last word
RES handed to the transport is `control_word(dev.mode, dev.chan)`" (R37). -/
def ControlWordInv (s : State) : Prop :=
  s.seq = .idle → s.status = .ok → s.ctl = .ready →
    s.trace.getLast? = some ⟨s.cfg.csId, controlWord s.cfg s.dev.mode s.dev.chan, .ok⟩

/-- The response registers agree with each other: `err_step` is 1 to 5 after a transport error and 0
otherwise, and a cause is held exactly after a transport error (R33, R181 to R185). -/
def ResponseInv (s : State) : Prop :=
  s.errStep.toNat ≤ 5 ∧ (s.status = .transportError ↔ s.errStep ≠ 0) ∧
    (s.status = .transportError ↔ s.errCause.isSome)

/-- The cached frequencies are non-negative (R28). -/
def FreqInv (s : State) : Prop := 0 ≤ s.dev.freq0 ∧ 0 ≤ s.dev.freq1

/-- The state is one a run of RES can be in. -/
structure Inv (s : State) : Prop where
  clock    : ClockInv s
  sequence : SequenceInv s
  staged   : StagedInv s
  control  : ControlWordInv s
  response : ResponseInv s
  freq     : FreqInv s

/-- `s` after the presented command ended at once with a status, no word written: the item is taken from
the host's stream, the response registers hold the status, 0 and `none`, and nothing else changes
(R131, R136). -/
def endedAtOnce (s : State) (st : Status) : State :=
  { s with
    port := s.port.tail
    status := st
    errStep := 0
    errCause := none
    responses := s.responses ++ [⟨st, 0, none⟩] }

/-- The six kinds of register word and the word each hands over, every operand in its field (R70 to
R74). -/
def WritesWord (cfg : Config) (i : Instr) (w : Word) : Prop :=
  (∃ m c, i = .controlWord m c ∧ w = controlWord cfg m c) ∨
  (∃ m c, i = .resetQualifiedWord m c ∧ w = resetQualifiedWord cfg m c) ∨
  (i = .resetWord ∧ w = resetWord cfg) ∨
  (∃ p, p < 2 ^ 14 ∧ i = .freq0 p ∧ w = freqRegisterWord (BitVec.ofNat 14 p) 0 false) ∨
  (∃ p, p < 2 ^ 14 ∧ i = .freq1 p ∧ w = freqRegisterWord (BitVec.ofNat 14 p) 1 false) ∨
  (∃ p, i = .phase p ∧ w = phaseRegisterWord p)

/-- The waveform line's instruction and the mode it names (R88). -/
def LineNames (f : Rat) (i : Instr) (m : WaveformMode) : Prop :=
  (i = .sine f ∧ m = .sine) ∨ (i = .triangle f ∧ m = .triangle) ∨ (i = .square f ∧ m = .square)

/-- The instruction is a command or a front-end line: what the command port carries (R80, R88, R89). -/
def IsPortInstr (i : Instr) : Prop :=
  (∃ clk, i = .init clk) ∨ (∃ f c p, i = .setFreq f c p) ∨ (∃ code, i = .setMode code) ∨
    i = .shutdown ∨ (∃ f m, LineNames f i m) ∨ i = .exit ∨ i = .quit

/-- The five writes of a SET_FREQ, in the mandated order, each answered `OK`, as trace entries (R133,
R215). -/
def setFreqEvents (cfg : Config) (m : WaveformMode) (c : Chan) (tw : TuningWord) (p : Int) :
    List WriteEvent :=
  [⟨cfg.csId, resetQualifiedWord cfg m c, .ok⟩,
   ⟨cfg.csId, freqRegisterWord (lsb14 tw) c false, .ok⟩,
   ⟨cfg.csId, freqRegisterWord (msb14 tw) c true, .ok⟩,
   ⟨cfg.csId, phaseRegisterWord p, .ok⟩,
   ⟨cfg.csId, controlWord cfg m c, .ok⟩]

end Sys2Proof.Machine
end

