-- ==== Sys2Proof/Certificates/Slice0/Obligations.lean ====
section
/-! DEFINITION. The statements for the provers. Each docstring names the rule of spec/ or the section a
statement rests on; OBLIGATIONS.json lists them. -/

open Sys2Proof Sys2Proof.Machine

/-! ## The Register Encoder -/

/-- The primitives of R10: `floor` is the greatest integer not above `x`, `frac` what is left,
`round_HALF_EVEN` by the three cases of `frac`, `round_HALF_UP`, `round_P` and `clamp`. -/
def Obligations.RoundingPrimitives : Prop :=
  (∀ x : Rat,
    (∀ n : Int, (n : Rat) ≤ x ↔ n ≤ x.floor) ∧
    frac x = x - (x.floor : Rat) ∧
    (frac x < 1 / 2 → roundHalfEven x = x.floor) ∧
    (1 / 2 < frac x → roundHalfEven x = x.floor + 1) ∧
    (frac x = 1 / 2 → Even (roundHalfEven x) ∧
      (roundHalfEven x = x.floor ∨ roundHalfEven x = x.floor + 1)) ∧
    roundHalfUp x = (x + 1 / 2).floor ∧
    roundP .halfEven x = roundHalfEven x ∧
    roundP .halfUp x = roundHalfUp x) ∧
  ∀ v lo hi : Int, clamp v lo hi = min (max v lo) hi

/-- Under either tie rule the rounded value is within one half of the exact one, the inference R114's
bound rests on ("since `|round_P(x) - x| <= 1/2`"). -/
def Obligations.RoundingIsNearest : Prop :=
  ∀ (r : Rounding) (x : Rat), |(roundP r x : Rat) - x| ≤ 1 / 2

/-- R101 and R102: outside `clock_hz > 0` both functions fault; inside, `TW_RAW` is the rounded exact
quotient (0 at 0, not positive for a negative frequency) and the tuning word is it clamped to 28 bits. -/
def Obligations.TuningWordIsClampedRoundedQuotient : Prop :=
  ∀ (r : Rounding) (f clk : Rat),
    (clk ≤ 0 → twRaw r f clk = .error .clockOutsideDomain ∧
      tuningWord r f clk = .error .clockOutsideDomain) ∧
    (0 < clk →
      twRaw r f clk = .ok (roundP r (f * 2 ^ 28 / clk)) ∧
      (f = 0 → twRaw r f clk = .ok 0) ∧
      (f < 0 → roundP r (f * 2 ^ 28 / clk) ≤ 0) ∧
      ∃ w : TuningWord, tuningWord r f clk = .ok w ∧
        (w.toNat : Int) = clamp (roundP r (f * 2 ^ 28 / clk)) 0 (2 ^ 28 - 1))

/-- R112, the spec's inference from R101 and R102: the tuning word never falls as the frequency rises,
over all rationals. -/
def Obligations.TuningWordMonotone : Prop :=
  ∀ (r : Rounding) (clk f g : Rat), 0 < clk → f ≤ g →
    ∃ v w : TuningWord, tuningWord r f clk = .ok v ∧ tuningWord r g clk = .ok w ∧ v.toNat ≤ w.toNat

/-- R103: the halves are the low and the high 14 bits. -/
def Obligations.SplitIsLowAndHighHalf : Prop :=
  ∀ w : TuningWord,
    (splitTuningWord w).1.toNat = w.toNat % 2 ^ 14 ∧ (splitTuningWord w).2.toNat = w.toNat / 2 ^ 14

/-- R104, the spec's inference: splitting and reassembling are inverse to each other. -/
def Obligations.SplitReassembles : Prop :=
  (∀ w : TuningWord, reassemble (splitTuningWord w).1 (splitTuningWord w).2 = w) ∧
  ∀ l m : Half, splitTuningWord (reassemble l m) = (l, m)

/-- R113, the spec's inference: half the clock gives `2^27` exactly under either tie rule. -/
def Obligations.NyquistTuningWord : Prop :=
  ∀ (r : Rounding) (clk : Rat), 0 < clk →
    tuningWord r (clk / 2) clk = .ok 0x8000000 ∧ splitTuningWord 0x8000000 = (0x0000, 0x2000)

/-- R114, the spec's inference: for every frequency SET_FREQ admits, the frequency the chip produces (by
the formula the spec takes from general knowledge, log entry 12) is within `clock_hz / 2^29`. -/
def Obligations.QuantizationErrorBound : Prop :=
  ∀ (r : Rounding) (f clk : Rat) (raw : Int), 0 < clk → 0 < f → twRaw r f clk = .ok raw →
    raw ≤ 2 ^ 28 - 1 → |actualFrequency (clampTuningWord raw) clk - f| ≤ clk / 2 ^ 29

/-- R115 and the last row of R116, the spec's inferences: below half a step the word is 0, at exactly half
a step the tie rule decides, and at `2^28 - 1/2` the raw value is `2^28` under both. -/
def Obligations.TiesAtBothEndsOfTheRange : Prop :=
  ∀ f clk : Rat, 0 < clk →
    (0 < f → f * 2 ^ 28 / clk < 1 / 2 → ∀ r, tuningWord r f clk = .ok 0) ∧
    (f * 2 ^ 28 / clk = 1 / 2 →
      tuningWord .halfEven f clk = .ok 0 ∧ tuningWord .halfUp f clk = .ok 1) ∧
    (f * 2 ^ 28 / clk = 2 ^ 28 - 1 / 2 → ∀ r, twRaw r f clk = .ok (2 ^ 28))

/-- R105: the channel's prefix, the payload below it, `is_msb` not read; and a payload wider than 14 bits
or a channel that is neither 0 nor 1 is refused. -/
def Obligations.FreqRegisterWordFields : Prop :=
  (∀ (p : Half) (ch : Chan) (b : Bool),
    freqRegisterWord p ch b = freqRegisterWord p ch (!b) ∧
    (freqRegisterWord p ch b).extractLsb' 0 14 = p ∧
    (freqRegisterWord p ch b).extractLsb' 14 2 = (if ch = 0 then 0b01 else 0b10)) ∧
  ∀ (n c : Nat) (b : Bool),
    (n < 2 ^ 14 → c < 2 → checkedFreqRegisterWord n c b =
      .ok (freqRegisterWord (BitVec.ofNat 14 n) (BitVec.ofNat 1 c) b)) ∧
    (2 ^ 14 ≤ n ∨ 2 ≤ c → checkedFreqRegisterWord n c b = .error .operandOutsideType)

/-- R107 and R76: the prefix `1100`, and below it the phase modulo 4096 for every integer. -/
def Obligations.PhaseRegisterWordFields : Prop :=
  ∀ p : Int,
    (phaseRegisterWord p).extractLsb' 12 4 = 0b1100 ∧
    (((phaseRegisterWord p).extractLsb' 0 12).toNat : Int) = p % 4096 ∧
    (0 ≤ p → p ≤ 4095 → (((phaseRegisterWord p).extractLsb' 0 12).toNat : Int) = p)

/-- The CTRL words bit by bit (R71's last column; the positions are R6's, taken by the spec from general
knowledge): B28, FSELECT, RESET and the mode bits, and every other bit 0. R111 is in it. -/
def Obligations.CtrlWordBits : Prop :=
  ∀ (cfg : Config) (m : WaveformMode) (ch : Chan) (k : Nat), cfg.TableValues →
    (controlWord cfg m ch).getLsbD k =
      decide (k = 13 ∨ (k = 11 ∧ ch = 1) ∨ ((k = 5 ∨ k = 3) ∧ m = .square) ∨ (k = 1 ∧ m = .triangle)) ∧
    (resetQualifiedWord cfg m ch).getLsbD k =
      decide (k = 13 ∨ k = 8 ∨ (k = 11 ∧ ch = 1) ∨ ((k = 5 ∨ k = 3) ∧ m = .square) ∨
        (k = 1 ∧ m = .triangle)) ∧
    (resetWord cfg).getLsbD k = decide (k = 8)

/-! ## Encoding -/

/-- R74, the spec's inference: under R6's values the decoder accepts exactly the listed words. -/
def Obligations.EmittedWordSet : Prop :=
  ∀ (cfg : Config) (w : Word), cfg.TableValues →
    ((∃ i, decodeWord cfg w = .ok i) ↔
      w ∈ ([0x2000, 0x2002, 0x2028, 0x2800, 0x2802, 0x2828,
            0x2100, 0x2102, 0x2128, 0x2900, 0x2902, 0x2928, 0x0100] : List Word) ∨
      (0x4000 ≤ w.toNat ∧ w.toNat ≤ 0x7FFF) ∨
      (0x8000 ≤ w.toNat ∧ w.toNat ≤ 0xBFFF) ∨
      (0xC000 ≤ w.toNat ∧ w.toNat ≤ 0xCFFF))

/-- Decoding an encoded well-formed instruction gives it back, for every instruction of both languages and
every configuration whose CTRL words are told apart, as R6's are. -/
def Obligations.DecodeEncodeRoundTrip : Prop :=
  ∀ (cfg : Config) (i : Instr), unambiguous cfg = true → i.wf = true →
    decode cfg (encode cfg i) = .ok i

/-- Under every configuration, a word that decodes is the encoding of what it decodes to, which is well
formed. -/
def Obligations.EncodeDecodedWord : Prop :=
  ∀ (cfg : Config) (w : Word) (i : Instr), decodeWord cfg w = .ok i →
    encode cfg i = .word w ∧ i.wf = true

/-- R81: each of the four op codes is a command and takes the operand fields the table gives it; the other
fields have no effect. -/
def Obligations.CommandOpCodes : Prop :=
  ∀ r : CommandRecord,
    (r.op = 0b00 → decodeCommand r = .init r.clockHz) ∧
    (r.op = 0b01 → decodeCommand r = .setFreq r.freqHz r.chan r.phase) ∧
    (r.op = 0b10 → decodeCommand r = .setMode r.mode) ∧
    (r.op = 0b11 → decodeCommand r = .shutdown) ∧
    (r.op = 0b00 ∨ r.op = 0b01 ∨ r.op = 0b10 ∨ r.op = 0b11)

/-- Words written out from the spec's formats decode to the instructions they stand for (95 section 2). -/
def Obligations.SpecWordsDecode : Prop :=
  decodeTableWord 16 0b0010000000101000 = some (.controlWord .square 0) ∧
  decodeTableWord 16 0b0010100100000010 = some (.resetQualifiedWord .triangle 1) ∧
  decodeTableWord 16 0b0000000100000000 = some .resetWord ∧
  decodeTableWord 16 0b0110100111110001 = some (.freq0 10737) ∧
  decodeTableWord 16 0b1010000000000000 = some (.freq1 0x2000) ∧
  decodeTableWord 16 0b1100010000000000 = some (.phase 1024) ∧
  decodeTableWord 16 0b1110000000000000 = none ∧
  decodeTableWord 16 0b0010000000101010 = none ∧
  decodeTableWord 8 0b11 = some .shutdown

/-! ## The step, reset and construction -/

/-- A step runs the decoded instruction: the item presented while `seq = IDLE`, the word at the step index
while `seq = BUSY`. Nothing is added around `exec`: taking the item and moving the index are in the
meanings. A scheduled word that is no word of R74 is handed over all the same, with the effect of its
answer (DEDUCED from R138, log entry 17). -/
def Obligations.StepRunsTheDecodedInstruction : Prop :=
  ∀ s : State, s.resetInput = false →
    (∀ item items, s.seq = .idle → s.port = item :: items → step s = exec (decodePort item) s) ∧
    (∀ w i, s.seq = .busy → s.seqWords.get s.step.toNat = some w → decodeWord s.cfg w = .ok i →
      step s = exec i s) ∧
    (∀ w d, s.seq = .busy → s.seqWords.get s.step.toNat = some w → decodeWord s.cfg w = .error d →
      step s = writeStep w s ∧
      ∀ a rest, s.answers = a :: rest →
        step s = .next (State.takeAnswer
          { s with
            trace := s.trace ++ [⟨s.cfg.csId, w, a⟩]
            answers := rest } a) ∧
        ∃ t, step s = .next t ∧ t.trace = s.trace ++ [⟨s.cfg.csId, w, a⟩] ∧ t.answers = rest)

/-- R140: while the transport has not answered, every field holds and the port is not ready, whatever word
is under way. -/
def Obligations.StepWaits : Prop :=
  ∀ s : State, s.resetInput = false → s.seq = .busy → s.step.toNat < 5 → s.answers = [] →
    step s = .next s ∧ s.portReady = false

/-- With no command presented while `seq = IDLE`, a step leaves the state as it is: how the model shows
waiting for the host (DESIGN CHOICE, log entries 14 and 8). -/
def Obligations.IdleWaits : Prop :=
  ∀ s : State, s.resetInput = false → s.seq = .idle → s.port = [] → step s = .next s

/-- R39: the construction values. -/
def Obligations.ConstructionValues : Prop :=
  ∀ cfg : Config,
    (State.constructed cfg).ctl = .uninit ∧ (State.constructed cfg).seq = .idle ∧
    (State.constructed cfg).step = 0 ∧
    (State.constructed cfg).dev.mode = .sine ∧ (State.constructed cfg).dev.chan = 0 ∧
    (∀ c, (State.constructed cfg).dev.freq c = 0) ∧ (∀ c, (State.constructed cfg).dev.phase c = 0) ∧
    (State.constructed cfg).clock = none ∧ (State.constructed cfg).status = .none ∧
    (State.constructed cfg).errStep = 0 ∧ (State.constructed cfg).errCause = none

/-- The machine right after reset is construction under R6's third column (DESIGN CHOICE, log entry 5);
under every configuration nothing is presented, answered, written, reported or logged at construction and
the reset input is not asserted (the model's input and output lists, log entries 6, 14 and 16). -/
def Obligations.ResetIsConstruction : Prop :=
  State.reset = State.constructed Config.standard ∧
  ∀ cfg : Config,
    (State.constructed cfg).cfg = cfg ∧ (State.constructed cfg).trace = [] ∧
    (State.constructed cfg).responses = [] ∧ (State.constructed cfg).log = [] ∧
    (State.constructed cfg).port = [] ∧ (State.constructed cfg).answers = [] ∧
    (State.constructed cfg).resetInput = false

/-- R210: the reset event gives every field with a construction value that value, at whatever point it
comes, and writes nothing to the transport. That the event goes before everything else, that the host's
stream, the transport's answers and what was observed so far stay, and that the input is taken once, is the
model's choice (log entry 6). -/
def Obligations.ResetInputConstructs : Prop :=
  ∀ s : State, s.resetInput = true →
    ∃ t, step s = .next t ∧
      t.ctl = .uninit ∧ t.seq = .idle ∧ t.step = 0 ∧ t.dev = ⟨.sine, 0, 0, 0, 0, 0⟩ ∧ t.clock = none ∧
      t.status = .none ∧ t.errStep = 0 ∧ t.errCause = none ∧
      t.trace = s.trace ∧ t.cfg = s.cfg ∧ t.port = s.port ∧ t.answers = s.answers ∧
      t.responses = s.responses ∧ t.log = s.log ∧ t.resetInput = false

/-! ## Commands: acceptance -/

/-- INIT completes (41_sequencer.md section 2, R132): outside `READY`, with a positive clock, the two words
and the commit record are staged; nothing else changes. -/
def Obligations.InitStages : Prop :=
  ∀ (s : State) (clk : Rat), s.seq = .idle → s.ctl ≠ .ready → 0 < clk →
    exec (.init clk) s = .next
      { s with
        port := s.port.tail
        seqWords := ⟨resetWord s.cfg, controlWord s.cfg .sine 0,
          s.seqWords.w2, s.seqWords.w3, s.seqWords.w4⟩
        seqLen := 2
        seqOp := .init
        pend := ⟨.ready, ⟨.sine, 0, 0, 0, 0, 0⟩, some clk⟩
        step := 0
        seq := .busy }

/-- R181: INIT, and only INIT, ends with `CONFIG_ERROR`, exactly when it is legal and `clock_hz <= 0`;
before any write, with `err_step = 0` and `err_cause = none`. -/
def Obligations.ConfigErrorIsInitsAlone : Prop :=
  (∀ (s : State) (clk : Rat), s.seq = .idle → s.ctl ≠ .ready → clk ≤ 0 →
    exec (.init clk) s = .next (endedAtOnce s .configError)) ∧
  ∀ (s t : State) (i : Instr), s.status ≠ .configError → exec i s = .next t → t.status = .configError →
    ∃ clk, i = .init clk ∧ clk ≤ 0 ∧ t.trace = s.trace ∧ t.errStep = 0 ∧ t.errCause = none

/-- SET_FREQ completes (41_sequencer.md section 2, R133): in `READY`, with the frequency and the phase in
range, the five words and the commit record are staged. The words carry the mode current now; the other
channel's frequency and phase stay. -/
def Obligations.SetFreqStages : Prop :=
  ∀ (s : State) (f clk : Rat) (c : Chan) (p raw : Int),
    s.seq = .idle → s.ctl = .ready → s.clock = some clk → 0 < f →
    twRaw s.cfg.round f clk = .ok raw → raw ≤ 2 ^ 28 - 1 → 0 ≤ p → p ≤ 4095 →
    ∃ tw : TuningWord, tuningWord s.cfg.round f clk = .ok tw ∧ (tw.toNat : Int) = raw ∧
      exec (.setFreq f c p) s = .next
        { s with
          port := s.port.tail
          seqWords := ⟨resetQualifiedWord s.cfg s.dev.mode c, freqRegisterWord (lsb14 tw) c false,
            freqRegisterWord (msb14 tw) c true, phaseRegisterWord p, controlWord s.cfg s.dev.mode c⟩
          seqLen := 5
          seqOp := .setFreq
          pend := ⟨.ready,
            { mode := s.dev.mode
              chan := c
              freq0 := if c = 0 then f else s.dev.freq0
              freq1 := if c = 1 then f else s.dev.freq1
              phase0 := if c = 0 then BitVec.ofInt 12 p else s.dev.phase0
              phase1 := if c = 1 then BitVec.ofInt 12 p else s.dev.phase1 },
            s.clock⟩
          step := 0
          seq := .busy }

/-- R182: in `READY` SET_FREQ ends with `OUT_OF_RANGE`, before any write and with nothing else recorded,
when the frequency is not positive, the raw tuning word exceeds 28 bits, or the phase is outside 0 to
4095. -/
def Obligations.SetFreqOutOfRange : Prop :=
  ∀ (s : State) (f clk : Rat) (c : Chan) (p : Int),
    s.seq = .idle → s.ctl = .ready → s.clock = some clk → 0 < clk →
    (f ≤ 0 ∨ (∃ raw, twRaw s.cfg.round f clk = .ok raw ∧ 2 ^ 28 - 1 < raw) ∨ p < 0 ∨ 4095 < p) →
    exec (.setFreq f c p) s = .next (endedAtOnce s .outOfRange)

/-- SET_MODE completes (41_sequencer.md section 2, R134): in `READY`, with a code that names a mode, the
one control word of the active channel is staged. -/
def Obligations.SetModeStages : Prop :=
  ∀ (s : State) (code : BitVec 2) (m : WaveformMode), s.seq = .idle → s.ctl = .ready →
    (code = 0b00 ∧ m = .sine ∨ code = 0b01 ∧ m = .triangle ∨ code = 0b10 ∧ m = .square) →
    exec (.setMode code) s = .next
      { s with
        port := s.port.tail
        seqWords := ⟨controlWord s.cfg m s.dev.chan,
          s.seqWords.w1, s.seqWords.w2, s.seqWords.w3, s.seqWords.w4⟩
        seqLen := 1
        seqOp := .setMode
        pend := ⟨s.ctl, { s.dev with mode := m }, s.clock⟩
        step := 0
        seq := .busy }

/-- R183: in `READY` SET_MODE with the code `11` ends with `OUT_OF_RANGE` before any write. -/
def Obligations.SetModeReservedCode : Prop :=
  ∀ s : State, s.seq = .idle → s.ctl = .ready →
    exec (.setMode 0b11) s = .next (endedAtOnce s .outOfRange)

/-- SHUTDOWN, `exit` and `quit` complete (41_sequencer.md section 2, R135; R89): in `READY` the reset word
is staged; outside `READY` nothing is written, the state error is logged and the status is `OK`. -/
def Obligations.ShutdownStagesOrLogs : Prop :=
  ∀ (s : State) (i : Instr), s.seq = .idle → (i = .shutdown ∨ i = .exit ∨ i = .quit) →
    (s.ctl = .ready → exec i s = .next
      { s with
        port := s.port.tail
        seqWords := ⟨resetWord s.cfg, s.seqWords.w1, s.seqWords.w2, s.seqWords.w3, s.seqWords.w4⟩
        seqLen := 1
        seqOp := .shutdown
        pend := ⟨.reset, ⟨.sine, 0, 0, 0, 0, 0⟩, none⟩
        step := 0
        seq := .busy }) ∧
    (s.ctl ≠ .ready → exec i s = .next
      { endedAtOnce s .ok with log := s.log ++ [.protocolStateError] })

/-- R185, the legality table: INIT in `READY`, and SET_FREQ and SET_MODE outside it, end with
`PROTOCOL_STATE_ERROR` whatever their operands; SHUTDOWN outside `READY` is logged with status `OK`; and a
legal command never ends with it. -/
def Obligations.CommandLegality : Prop :=
  ∀ s : State, s.seq = .idle →
    (s.ctl = .ready → ∀ clk, exec (.init clk) s = .next (endedAtOnce s .protocolStateError)) ∧
    (s.ctl ≠ .ready → ∀ f c p,
      exec (.setFreq f c p) s = .next (endedAtOnce s .protocolStateError)) ∧
    (s.ctl ≠ .ready → ∀ code,
      exec (.setMode code) s = .next (endedAtOnce s .protocolStateError)) ∧
    (s.ctl ≠ .ready → ∃ t, exec .shutdown s = .next t ∧ t.status = .ok ∧
      t.log = s.log ++ [.protocolStateError] ∧ t.trace = s.trace) ∧
    ∀ (i : Instr) (t : State),
      ((∃ clk, i = .init clk) ∧ s.ctl ≠ .ready ∨
        ((∃ f c p, i = .setFreq f c p) ∨ ∃ code, i = .setMode code) ∧ s.ctl = .ready ∨
        i = .shutdown) →
      s.status ≠ .protocolStateError → exec i s = .next t → t.status ≠ .protocolStateError

/-- The front end's waveform lines complete (30_encoding.md section 3, R88): in `READY` SET_MODE of the
named mode is staged and `SETFREQ f, 0, 0` is what the host presents next; outside `READY` the SET_MODE
ends with `PROTOCOL_STATE_ERROR` and the SETFREQ is still presented (log entry 7). -/
def Obligations.WaveformLinesExpand : Prop :=
  ∀ (s : State) (f : Rat) (i : Instr) (m : WaveformMode), s.seq = .idle → LineNames f i m →
    (s.ctl = .ready → exec i s = .next
      { s with
        port := .command { op := 0b01, freqHz := f, chan := 0, phase := 0 } :: s.port.tail
        seqWords := ⟨controlWord s.cfg m s.dev.chan,
          s.seqWords.w1, s.seqWords.w2, s.seqWords.w3, s.seqWords.w4⟩
        seqLen := 1
        seqOp := .setMode
        pend := ⟨s.ctl, { s.dev with mode := m }, s.clock⟩
        step := 0
        seq := .busy }) ∧
    (s.ctl ≠ .ready → exec i s = .next
      { endedAtOnce s .protocolStateError with
        port := .command { op := 0b01, freqHz := f, chan := 0, phase := 0 } :: s.port.tail })

/-- R130: the port is ready exactly when `seq = IDLE`, and while `seq = BUSY` the host holds its command:
no command and no front-end line changes anything. -/
def Obligations.CommandsHeldWhileBusy : Prop :=
  ∀ s : State, (s.portReady = true ↔ s.seq = .idle) ∧
    ∀ i : Instr, IsPortInstr i → s.seq = .busy → exec i s = .next s

/-- A command that ends at once with an error (R136, R188 "it writes nothing else"): the whole state is as
before but for the response registers, which hold the status, 0 and `none`, and the host's stream, from
which the item is taken (log entry 14; a waveform line leaves its SETFREQ there, log entry 7). That the
sequencer's registers keep their contents while `seq = IDLE` is log entry 2. -/
def Obligations.RejectionChangesNothingElse : Prop :=
  ∀ (s t : State) (i : Instr), IsPortInstr i → s.seq = .idle → exec i s = .next t →
    t.seq = .idle → t.status ≠ .ok →
    t = { s with
      port := t.port
      status := t.status
      errStep := 0
      errCause := none
      responses := s.responses ++ [⟨t.status, 0, none⟩] } ∧
    ((∀ f m, ¬ LineNames f i m) → t.port = s.port.tail) ∧
    ∀ f m, LineNames f i m →
      t.port = .command { op := 0b01, freqHz := f, chan := 0, phase := 0 } :: s.port.tail

/-- The order of R187 among SET_FREQ's and INIT's errors: the state first, whatever the operands; then, for
SET_FREQ in `READY`, the sign of the frequency, before the clock is looked at; and a tuning word is computed
only after both. Of the clock only a `READY` state without a positive one, which no run reaches, faults
(R101, R186; that SET_FREQ meets the encoder's fault there is DEDUCED, log entry 9). -/
def Obligations.FirstErrorWins : Prop :=
  ∀ (s : State) (f : Rat) (c : Chan) (p : Int), s.seq = .idle →
    (s.ctl ≠ .ready → exec (.setFreq f c p) s = .next (endedAtOnce s .protocolStateError)) ∧
    (s.ctl = .ready → f ≤ 0 → exec (.setFreq f c p) s = .next (endedAtOnce s .outOfRange)) ∧
    (s.ctl = .ready → 0 < f → (∀ clk, s.clock = some clk → clk ≤ 0) →
      exec (.setFreq f c p) s = .fault .clockOutsideDomain) ∧
    (s.ctl = .ready → exec (.init 0) s = .next (endedAtOnce s .protocolStateError))

/-! ## Register words: the write step -/

/-- The six register words complete (41_sequencer.md section 3, R138, R139): the scheduled word, answered
`OK` and not the last, joins the trace with the chip select, and the step index moves by one; nothing else
changes. -/
def Obligations.WordWriteAdvances : Prop :=
  ∀ (s : State) (i : Instr) (w : Word) (rest : List Answer),
    WritesWord s.cfg i w → s.seq = .busy → s.seqWords.get s.step.toNat = some w →
    s.answers = .ok :: rest → s.step + 1 ≠ s.seqLen →
    exec i s = .next
      { s with
        trace := s.trace ++ [⟨s.cfg.csId, w, .ok⟩]
        answers := rest
        step := s.step + 1 }

/-- R141: the `OK` answer to the last word of an INIT, SET_FREQ or SET_MODE sequence commits in that step,
and this is the only point at which these commands change `ctl`, `dev` or `clock`: while one of them runs,
or none does, no instruction changes them in any other way. That `step` holds `seq_len` afterwards is
DEDUCED between R23 and R139 (log entry 3). -/
def Obligations.CommitOnLastOk : Prop :=
  (∀ (s : State) (i : Instr) (w : Word) (rest : List Answer),
    WritesWord s.cfg i w → s.seq = .busy → s.seqWords.get s.step.toNat = some w →
    s.answers = .ok :: rest → s.step + 1 = s.seqLen → s.seqOp ≠ .shutdown →
    exec i s = .next
      { s with
        trace := s.trace ++ [⟨s.cfg.csId, w, .ok⟩]
        answers := rest
        step := s.step + 1
        ctl := s.pend.ctl
        dev := s.pend.dev
        clock := s.pend.clock
        status := .ok
        errStep := 0
        errCause := none
        seq := .idle
        responses := s.responses ++ [⟨.ok, 0, none⟩] }) ∧
  ∀ (s t : State) (i : Instr), (s.seq = .idle ∨ s.seqOp ≠ .shutdown) → exec i s = .next t →
    (t.ctl ≠ s.ctl ∨ t.dev ≠ s.dev ∨ t.clock ≠ s.clock) →
    s.seq = .busy ∧ s.step + 1 = s.seqLen ∧ s.answers = .ok :: t.answers ∧
      t.ctl = s.pend.ctl ∧ t.dev = s.pend.dev ∧ t.clock = s.pend.clock

/-- R142: the `ERR` answer to a word of an INIT, SET_FREQ or SET_MODE sequence ends the command: the failed
write's 1-based number and the cause are recorded, `ctl`, `dev` and `clock` keep their values, and with
`seq = IDLE` no further word is issued. R142 discards `pend`, whose content is then open (R25): that it and
the sequence's words keep their contents is a DESIGN CHOICE (log entry 2), and that `step` keeps the failed
word's index is DEDUCED (log entry 3). -/
def Obligations.AbortOnTransportError : Prop :=
  ∀ (s : State) (i : Instr) (w : Word) (c : TransportCause) (rest : List Answer),
    WritesWord s.cfg i w → s.seq = .busy → s.seqWords.get s.step.toNat = some w →
    s.answers = .err c :: rest → s.seqOp ≠ .shutdown →
    exec i s = .next
      { s with
        trace := s.trace ++ [⟨s.cfg.csId, w, .err c⟩]
        answers := rest
        status := .transportError
        errStep := s.step + 1
        errCause := some c
        seq := .idle
        responses := s.responses ++ [⟨.transportError, s.step + 1, some c⟩] }

/-- R143: SHUTDOWN's one write, whatever its answer, ends in `RESET` with the staged `dev` (the defaults,
where the state satisfies the invariant), no clock and status `OK`; an `ERR` is logged. -/
def Obligations.ShutdownEndsWhateverTheAnswer : Prop :=
  ∀ (s : State) (i : Instr) (w : Word) (a : Answer) (rest : List Answer),
    WritesWord s.cfg i w → s.seq = .busy → s.step = 0 → s.seqLen = 1 → s.seqWords.w0 = w →
    s.seqOp = .shutdown → s.answers = a :: rest →
    ∃ t, exec i s = .next t ∧ t.ctl = .reset ∧ t.dev = s.pend.dev ∧
      (Inv s → t.dev = ⟨.sine, 0, 0, 0, 0, 0⟩) ∧ t.clock = none ∧ t.status = .ok ∧
      t.errStep = 0 ∧ t.errCause = none ∧ t.seq = .idle ∧
      t.trace = s.trace ++ [⟨s.cfg.csId, w, a⟩] ∧ t.answers = rest ∧ t.port = s.port ∧ t.cfg = s.cfg ∧
      t.responses = s.responses ++ [⟨.ok, 0, none⟩] ∧
      (a = .ok → t.log = s.log) ∧ (∀ c, a = .err c → t.log = s.log ++ [.transportError 1 c])

/-- No step without an answer and none with a word that is not the scheduled one (R138: "It issues no other
word"; the second clause is the model's reading, log entry 11); and a payload wider than 14 bits is refused
(R105). -/
def Obligations.WordsHeldOrRefused : Prop :=
  (∀ (s : State) (i : Instr) (w : Word), WritesWord s.cfg i w →
    (s.answers = [] → exec i s = .next s) ∧ (s.seq = .idle → exec i s = .next s) ∧
    (s.seqWords.get s.step.toNat ≠ some w → exec i s = .next s)) ∧
  ∀ (s : State) (n : Nat), 2 ^ 14 ≤ n →
    exec (.freq0 n) s = .refused .operandOutsideType ∧ exec (.freq1 n) s = .refused .operandOutsideType

/-! ## Whole commands, from acceptance to response -/

/-- INIT from acceptance to response (R132, R145 rows 1 and 3): both words answered `OK` bring RES to
`READY` with the clock latched; an error at either word ends with its number and changes neither `ctl`,
`dev` nor `clock`. -/
def Obligations.InitRuns : Prop :=
  ∀ (s : State) (r : CommandRecord) (items : List PortItem) (rest : List Answer) (e : TransportCause),
    s.resetInput = false → s.seq = .idle → s.ctl ≠ .ready → s.port = .command r :: items →
    r.op = 0b00 → 0 < r.clockHz →
    (s.answers = .ok :: .ok :: rest →
      ∃ t, Host.Core.run core 3 s = .next t ∧ t.ctl = .ready ∧ t.dev = ⟨.sine, 0, 0, 0, 0, 0⟩ ∧
        t.clock = some r.clockHz ∧ t.status = .ok ∧ t.errStep = 0 ∧ t.errCause = none ∧ t.seq = .idle ∧
        t.trace = s.trace ++ [⟨s.cfg.csId, resetWord s.cfg, .ok⟩,
          ⟨s.cfg.csId, controlWord s.cfg .sine 0, .ok⟩] ∧
        t.port = items ∧ t.answers = rest ∧ t.log = s.log) ∧
    (s.answers = .err e :: rest →
      ∃ t, Host.Core.run core 2 s = .next t ∧ t.ctl = s.ctl ∧ t.dev = s.dev ∧ t.clock = s.clock ∧
        t.status = .transportError ∧ t.errStep = 1 ∧ t.errCause = some e ∧ t.seq = .idle ∧
        t.trace = s.trace ++ [⟨s.cfg.csId, resetWord s.cfg, .err e⟩]) ∧
    (s.answers = .ok :: .err e :: rest →
      ∃ t, Host.Core.run core 3 s = .next t ∧ t.ctl = s.ctl ∧ t.dev = s.dev ∧ t.clock = s.clock ∧
        t.status = .transportError ∧ t.errStep = 2 ∧ t.errCause = some e ∧ t.seq = .idle ∧
        t.trace = s.trace ++ [⟨s.cfg.csId, resetWord s.cfg, .ok⟩,
          ⟨s.cfg.csId, controlWord s.cfg .sine 0, .err e⟩])

/-- An admitted SET_FREQ with every write answered `OK` (R133, R145): six steps write exactly the five words
in the mandated order and then commit the channel, its frequency and its phase; the other channel, the mode
and the clock stay. -/
def Obligations.SetFreqWritesFiveWordsAndCommits : Prop :=
  ∀ (s : State) (r : CommandRecord) (items : List PortItem) (rest : List Answer) (clk : Rat)
    (tw : TuningWord),
    s.resetInput = false → s.seq = .idle → s.ctl = .ready → s.clock = some clk →
    s.port = .command r :: items → r.op = 0b01 → 0 < r.freqHz →
    twRaw s.cfg.round r.freqHz clk = .ok (tw.toNat : Int) → 0 ≤ r.phase → r.phase ≤ 4095 →
    s.answers = .ok :: .ok :: .ok :: .ok :: .ok :: rest →
    ∃ t, Host.Core.run core 6 s = .next t ∧
      t.trace = s.trace ++ setFreqEvents s.cfg s.dev.mode r.chan tw r.phase ∧
      t.ctl = .ready ∧ t.clock = s.clock ∧ t.dev.mode = s.dev.mode ∧ t.dev.chan = r.chan ∧
      t.dev.freq r.chan = r.freqHz ∧ t.dev.phase r.chan = BitVec.ofInt 12 r.phase ∧
      (∀ c, c ≠ r.chan → t.dev.freq c = s.dev.freq c ∧ t.dev.phase c = s.dev.phase c) ∧
      t.status = .ok ∧ t.errStep = 0 ∧ t.errCause = none ∧ t.seq = .idle ∧
      t.port = items ∧ t.answers = rest ∧ t.log = s.log ∧ t.cfg = s.cfg

/-- The same SET_FREQ with the error at write `k + 1`, for `k` of 0 to 4 (R142, R184, R189; the source's
property S8 is `k = 2`): the first `k + 1` words were handed over, the last of them failed, none follows;
the command ends with `err_step = k + 1` and the cause, and the mode, the active channel, both channels' frequencies and phases, the
clock and `ctl` keep their values. -/
def Obligations.SetFreqAbortsAtEachWrite : Prop :=
  ∀ (s : State) (r : CommandRecord) (items : List PortItem) (rest : List Answer) (clk : Rat)
    (tw : TuningWord) (k : Nat) (e : TransportCause),
    s.resetInput = false → s.seq = .idle → s.ctl = .ready → s.clock = some clk →
    s.port = .command r :: items → r.op = 0b01 → 0 < r.freqHz →
    twRaw s.cfg.round r.freqHz clk = .ok (tw.toNat : Int) → 0 ≤ r.phase → r.phase ≤ 4095 →
    k < 5 → s.answers = List.replicate k .ok ++ .err e :: rest →
    ∃ t, Host.Core.run core (k + 2) s = .next t ∧
      t.trace = s.trace ++ (setFreqEvents s.cfg s.dev.mode r.chan tw r.phase).take k ++
        ((setFreqEvents s.cfg s.dev.mode r.chan tw r.phase)[k]?.map
          (fun ev => { ev with answer := .err e })).toList ∧
      t.ctl = .ready ∧ t.dev = s.dev ∧ t.clock = s.clock ∧
      t.status = .transportError ∧ t.errStep.toNat = k + 1 ∧ t.errCause = some e ∧ t.seq = .idle ∧
      t.port = items ∧ t.answers = rest ∧ t.log = s.log

/-- SET_MODE from acceptance to response (R134, R145): one word, and the mode changes only if it was
answered `OK`. -/
def Obligations.SetModeRuns : Prop :=
  ∀ (s : State) (r : CommandRecord) (m : WaveformMode) (items : List PortItem) (a : Answer)
    (rest : List Answer),
    s.resetInput = false → s.seq = .idle → s.ctl = .ready → s.port = .command r :: items →
    r.op = 0b10 → modeOfCode r.mode = some m → s.answers = a :: rest →
    ∃ t, Host.Core.run core 2 s = .next t ∧
      t.trace = s.trace ++ [⟨s.cfg.csId, controlWord s.cfg m s.dev.chan, a⟩] ∧
      t.ctl = .ready ∧ t.clock = s.clock ∧ t.seq = .idle ∧ t.port = items ∧ t.answers = rest ∧
      (a = .ok → t.dev = { s.dev with mode := m } ∧ t.status = .ok ∧ t.errStep = 0 ∧ t.errCause = none) ∧
      (∀ e, a = .err e → t.dev = s.dev ∧ t.status = .transportError ∧ t.errStep = 1 ∧
        t.errCause = some e)

/-- SHUTDOWN in `READY` from acceptance to response (R135, R143, R145): the reset word, and then `RESET`,
the defaults, no clock and status `OK`, whatever the answer. -/
def Obligations.ShutdownRuns : Prop :=
  ∀ (s : State) (r : CommandRecord) (items : List PortItem) (a : Answer) (rest : List Answer),
    s.resetInput = false → s.seq = .idle → s.ctl = .ready → s.port = .command r :: items →
    r.op = 0b11 → s.answers = a :: rest →
    ∃ t, Host.Core.run core 2 s = .next t ∧
      t.trace = s.trace ++ [⟨s.cfg.csId, resetWord s.cfg, a⟩] ∧
      t.ctl = .reset ∧ t.dev = ⟨.sine, 0, 0, 0, 0, 0⟩ ∧ t.clock = none ∧ t.seq = .idle ∧
      t.status = .ok ∧ t.errStep = 0 ∧ t.errCause = none ∧ t.port = items ∧
      (a = .ok → t.log = s.log) ∧ (∀ e, a = .err e → t.log = s.log ++ [.transportError 1 e])

/-- A waveform line with every write answered `OK` (R88, R220): the control word of the named mode, then the
five words of a channel-0 SET_FREQ that already carry that mode. How the line becomes two commands is log
entry 7. -/
def Obligations.WaveformLineRuns : Prop :=
  ∀ (s : State) (m : WaveformMode) (f clk : Rat) (items : List PortItem) (rest : List Answer)
    (tw : TuningWord),
    s.resetInput = false → s.seq = .idle → s.ctl = .ready → s.clock = some clk →
    s.port = .line (.waveform m f) :: items → 0 < f →
    twRaw s.cfg.round f clk = .ok (tw.toNat : Int) →
    s.answers = .ok :: .ok :: .ok :: .ok :: .ok :: .ok :: rest →
    ∃ t, Host.Core.run core 8 s = .next t ∧
      t.trace = s.trace ++ ⟨s.cfg.csId, controlWord s.cfg m s.dev.chan, .ok⟩ ::
        setFreqEvents s.cfg m 0 tw 0 ∧
      t.ctl = .ready ∧ t.clock = s.clock ∧
      t.dev = { s.dev with mode := m, chan := 0, freq0 := f, phase0 := 0 } ∧
      t.status = .ok ∧ t.seq = .idle ∧ t.port = items ∧ t.answers = rest ∧ t.log = s.log

/-! ## Whole-machine rules -/

/-- The state at construction is one of the states the invariant describes. -/
def Obligations.ConstructionSatisfiesInv : Prop :=
  ∀ cfg : Config, Inv (State.constructed cfg)

/-- Every step keeps the invariant: the clock rule of R31, the sequencer bounds and delivered words of R38,
the captured words of R137, the control-word invariant of R37, the agreement of the response registers and
the sign of the cached frequencies. -/
def Obligations.StepKeepsInv : Prop :=
  ∀ s t : State, Inv s → step s = .next t → Inv t

/-- From a state of the invariant a step always goes on: "No command of RES reaches either case" (R186), and
no word of a running sequence is missing. -/
def Obligations.StepFromInvGoesOn : Prop :=
  ∀ s : State, Inv s → goesOn (step s)

/-- No step writes the configuration (R36). -/
def Obligations.ConfigurationIsFixed : Prop :=
  ∀ s t : State, step s = .next t → t.cfg = s.cfg

/-- R138, R59: the trace only grows, and only by the scheduled word of a running sequence, handed to
`P_CS_ID` exactly once for each step index: with the word the answer is taken and the step index moves or
the command ends, and without it, the reset input aside, a running sequence does not move at all. A word
joins the trace with its answer (log entry 15); under the reset input the answers stay (log entry 6). -/
def Obligations.TraceGrowsByScheduledWord : Prop :=
  ∀ s t : State, step s = .next t →
    (t.trace = s.trace ∧ t.answers = s.answers ∧
      (s.resetInput = false → s.seq = .busy → t = s)) ∨
    (s.seq = .busy ∧ ∃ w a, s.seqWords.get s.step.toNat = some w ∧
      t.trace = s.trace ++ [⟨s.cfg.csId, w, a⟩] ∧ s.answers = a :: t.answers ∧
      (t.seq = .idle ∨ t.seq = .busy ∧ a = .ok ∧ t.step = s.step + 1 ∧ t.seqWords = s.seqWords ∧
        t.seqLen = s.seqLen ∧ t.seqOp = s.seqOp ∧ t.pend = s.pend))

/-- R32: while a command runs, from its acceptance to the step before its end, the host reads the values
from before the command; nothing staged is visible. -/
def Obligations.StagedValuesInvisible : Prop :=
  ∀ s t : State, s.resetInput = false → step s = .next t → t.seq = .busy →
    t.hostView = s.hostView

/-- The response registers change only at a command's end, all three together, and then the port is ready
(R33, R84). -/
def Obligations.ResponsesWrittenAtCommandEnd : Prop :=
  ∀ s t : State, s.resetInput = false → step s = .next t →
    (t.responses = s.responses ∧ t.status = s.status ∧ t.errStep = s.errStep ∧
      t.errCause = s.errCause) ∨
    (t.portReady = true ∧ t.responses = s.responses ++ [⟨t.status, t.errStep, t.errCause⟩] ∧
      t.status ≠ .none)

/-- Only SHUTDOWN writes to the log (R34): a step that adds to it accepts SHUTDOWN outside `READY` (as
itself, `exit` or `quit`) or takes the failed answer to SHUTDOWN's write. -/
def Obligations.OnlyShutdownLogs : Prop :=
  ∀ s t : State, step s = .next t →
    t.log = s.log ∨
    (s.seq = .idle ∧ s.ctl ≠ .ready ∧ t.log = s.log ++ [.protocolStateError] ∧
      ∃ item items, s.port = item :: items ∧
        (decodePort item = .shutdown ∨ decodePort item = .exit ∨ decodePort item = .quit)) ∨
    (s.seq = .busy ∧ s.seqOp = .shutdown ∧ ∃ c, s.answers = .err c :: t.answers ∧
      t.log = s.log ++ [.transportError 1 c])

/-- Only SET_FREQ makes channel 1 the active one (R27): from a state of the invariant with channel 0
active, a step that ends with channel 1 active is the commit of a SET_FREQ. -/
def Obligations.OnlySetFreqSelectsChannelOne : Prop :=
  ∀ s t : State, Inv s → step s = .next t → s.dev.chan = 0 → t.dev.chan = 1 →
    s.seq = .busy ∧ s.seqOp = .setFreq ∧ t.status = .ok

/-- The transitions of the controller state (R21, R145): `ctl` becomes `READY` only by INIT's commit,
leaves `READY` only by the end of SHUTDOWN or the reset event, and is otherwise unchanged. -/
def Obligations.ControllerTransitions : Prop :=
  ∀ s t : State, Inv s → s.resetInput = false → step s = .next t → t.ctl ≠ s.ctl →
    (s.ctl ≠ .ready ∧ t.ctl = .ready ∧ s.seq = .busy ∧ s.seqOp = .init ∧ t.status = .ok) ∨
    (s.ctl = .ready ∧ t.ctl = .reset ∧ s.seq = .busy ∧ s.seqOp = .shutdown ∧ t.status = .ok)

/-- The codes of the statuses (R180), the controller states (R21) and the modes (R26, R83). -/
def Obligations.RegisterCodes : Prop :=
  Status.none.code = 0 ∧ Status.ok.code = 1 ∧ Status.configError.code = 2 ∧
  Status.outOfRange.code = 3 ∧ Status.transportError.code = 4 ∧ Status.protocolStateError.code = 5 ∧
  (∀ st : Status, st.code ≠ 6 ∧ st.code ≠ 7) ∧
  Ctl.uninit.code = 0b00 ∧ Ctl.ready.code = 0b01 ∧ Ctl.reset.code = 0b10 ∧
  (∀ c : Ctl, c.code ≠ 0b11) ∧
  (∀ (code : BitVec 2) (m : WaveformMode), modeOfCode code = some m ↔ modeCode m = code) ∧
  modeOfCode 0b11 = none
end

