-- ==== Sys2Proof/Laws/Decode.lean ====
section
/-! SUPPORT. The small facts of the decoder and the encoder. -/

namespace Sys2Proof

@[simp] theorem opOfCode_code (op : Op) : opOfCode op.code = op := by cases op <;> decide

@[simp] theorem modeOfCode_modeCode (m : WaveformMode) :
    Machine.modeOfCode (Machine.modeCode m) = some m := by cases m <;> decide

/-- A decode error names the word that was read. -/
theorem decodeWord_error_word {cfg : Config} {w : Word} {d : DecodeError}
    (h : decodeWord cfg w = .error d) : d.word = w := by
  unfold decodeWord at h
  split_ifs at h
  · simp only [Except.error.injEq] at h; subst h; rfl
  · split at h
    · cases h
    · simp only [Except.error.injEq] at h; subst h; rfl

/-- What the decoder reads from a CTRL word is one of the CTRL instructions, and its word is that word. -/
theorem ctrl_found {cfg : Config} {w : Word} {i : Instr}
    (h : ctrlInstrs.find? (fun i => decide (wordOf cfg i = some w)) = some i) :
    i ∈ ctrlInstrs ∧ wordOf cfg i = some w :=
  ⟨List.mem_of_find?_eq_some h, by simpa using List.find?_some h⟩

/-- Encoding gives a register word exactly for the six register-word kinds. -/
theorem encode_word_iff (cfg : Config) (i : Instr) (w : Word) :
    encode cfg i = .word w ↔ wordOf cfg i = some w := by
  cases i <;> simp [encode, wordOf]

/-- Decoding an item of the host's stream never fails. -/
@[simp] theorem decode_port (cfg : Config) (p : PortItem) : decode cfg (.port p) = .ok (decodePort p) :=
  rfl

/-- A command or a front-end line reads back from its encoding, under every configuration. -/
theorem decodePort_encode {cfg : Config} {i : Instr} {p : PortItem} (h : encode cfg i = .port p) :
    decodePort p = i := by
  cases i <;> simp only [encode, Encoded.port.injEq, reduceCtorEq] at h <;> subst h <;> rfl

end Sys2Proof
end

