-- ==== Sys2Proof/Laws/Encoder.lean ====
section
/-! SUPPORT. The small facts of the Register Encoder's definitions, one spec lemma per function; later
proofs cite them instead of unfolding it. -/

namespace Sys2Proof.Machine

/-! ## Rounding -/

theorem floor_le_self (x : Rat) : (x.floor : Rat) ≤ x := Rat.le_floor_iff.mp le_rfl

theorem lt_floor_add_one (x : Rat) : x < x.floor + 1 := by
  by_contra h
  have h' : x.floor + 1 ≤ x.floor := Rat.le_floor_iff.mpr (by push_cast; exact not_lt.mp h)
  omega

theorem frac_nonneg (x : Rat) : 0 ≤ frac x := by
  have := floor_le_self x
  unfold frac
  linarith

theorem frac_lt_one (x : Rat) : frac x < 1 := by
  have := lt_floor_add_one x
  unfold frac
  linarith

theorem eq_floor_add_frac (x : Rat) : x = x.floor + frac x := by
  unfold frac
  ring

/-- `round_HALF_EVEN` by its three cases (R10). -/
theorem roundHalfEven_cases (x : Rat) :
    (frac x < 1 / 2 ∧ roundHalfEven x = x.floor) ∨
    (1 / 2 < frac x ∧ roundHalfEven x = x.floor + 1) ∨
    (frac x = 1 / 2 ∧ roundHalfEven x % 2 = 0 ∧
      (roundHalfEven x = x.floor ∨ roundHalfEven x = x.floor + 1)) := by
  unfold roundHalfEven
  split_ifs with h1 h2 h3
  · exact .inl ⟨h1, rfl⟩
  · exact .inr (.inl ⟨h2, rfl⟩)
  · exact .inr (.inr ⟨le_antisymm (not_lt.mp h2) (not_lt.mp h1), h3, .inl rfl⟩)
  · exact .inr (.inr ⟨le_antisymm (not_lt.mp h2) (not_lt.mp h1), by omega, .inr rfl⟩)

/-! ## Tuning word -/

theorem twRaw_of_pos {r : Rounding} {f clk : Rat} (h : 0 < clk) :
    twRaw r f clk = .ok (roundP r (f * 2 ^ 28 / clk)) := by
  simp [twRaw, not_le.mpr h]

theorem twRaw_of_not_pos {r : Rounding} {f clk : Rat} (h : clk ≤ 0) :
    twRaw r f clk = .error .clockOutsideDomain := by
  simp [twRaw, h]

theorem tuningWord_of_pos {r : Rounding} {f clk : Rat} (h : 0 < clk) :
    tuningWord r f clk = .ok (clampTuningWord (roundP r (f * 2 ^ 28 / clk))) := by
  simp [tuningWord, twRaw_of_pos h]

theorem clampTuningWord_toNat (raw : Int) :
    ((clampTuningWord raw).toNat : Int) = min (max raw 0) (2 ^ 28 - 1) := by
  unfold clampTuningWord clamp maxTuningWord
  rw [BitVec.toNat_ofInt]
  omega

/-! ## Register words -/

@[simp] theorem freqPrefix_zero : freqPrefix 0 = 0x4000 := rfl
@[simp] theorem freqPrefix_one : freqPrefix 1 = 0x8000 := rfl
@[simp] theorem fselectBits_zero (cfg : Config) : fselectBits cfg 0 = 0 := rfl
@[simp] theorem fselectBits_one (cfg : Config) : fselectBits cfg 1 = cfg.fselect := rfl

/-- `is_msb` is not read (R105). -/
theorem freqRegisterWord_isMsb (p : Half) (ch : Chan) (a b : Bool) :
    freqRegisterWord p ch a = freqRegisterWord p ch b := rfl

theorem checkedFreqRegisterWord_fits {n c : Nat} (b : Bool) (hn : n < 2 ^ 14) (hc : c < 2) :
    checkedFreqRegisterWord n c b =
      .ok (freqRegisterWord (BitVec.ofNat 14 n) (BitVec.ofNat 1 c) b) :=
  if_pos ⟨hn, hc⟩

theorem phaseField_toNat (p : Int) : ((phaseField p).toNat : Int) = p % 4096 := by
  unfold phaseField
  rw [BitVec.toNat_ofInt]
  omega

end Sys2Proof.Machine
end

