-- ==== Sys2Proof/Laws/State.lean ====
section
/-! SUPPORT. One lemma per field per elementary update of the state, true by `rfl`: no later proof
unfolds a record update. -/

namespace Sys2Proof.Machine.State

/-! ## respond -/

@[simp] theorem respond_cfg (s : State) (st : Status) (k : BitVec 3) (c : Option TransportCause) : (s.respond st k c).cfg = s.cfg := rfl
@[simp] theorem respond_ctl (s : State) (st : Status) (k : BitVec 3) (c : Option TransportCause) : (s.respond st k c).ctl = s.ctl := rfl
@[simp] theorem respond_seq (s : State) (st : Status) (k : BitVec 3) (c : Option TransportCause) : (s.respond st k c).seq = .idle := rfl
@[simp] theorem respond_step (s : State) (st : Status) (k : BitVec 3) (c : Option TransportCause) : (s.respond st k c).step = s.step := rfl
@[simp] theorem respond_seqWords (s : State) (st : Status) (k : BitVec 3) (c : Option TransportCause) : (s.respond st k c).seqWords = s.seqWords := rfl
@[simp] theorem respond_seqLen (s : State) (st : Status) (k : BitVec 3) (c : Option TransportCause) : (s.respond st k c).seqLen = s.seqLen := rfl
@[simp] theorem respond_seqOp (s : State) (st : Status) (k : BitVec 3) (c : Option TransportCause) : (s.respond st k c).seqOp = s.seqOp := rfl
@[simp] theorem respond_pend (s : State) (st : Status) (k : BitVec 3) (c : Option TransportCause) : (s.respond st k c).pend = s.pend := rfl
@[simp] theorem respond_dev (s : State) (st : Status) (k : BitVec 3) (c : Option TransportCause) : (s.respond st k c).dev = s.dev := rfl
@[simp] theorem respond_clock (s : State) (st : Status) (k : BitVec 3) (c : Option TransportCause) : (s.respond st k c).clock = s.clock := rfl
@[simp] theorem respond_status (s : State) (st : Status) (k : BitVec 3) (c : Option TransportCause) : (s.respond st k c).status = st := rfl
@[simp] theorem respond_errStep (s : State) (st : Status) (k : BitVec 3) (c : Option TransportCause) : (s.respond st k c).errStep = k := rfl
@[simp] theorem respond_errCause (s : State) (st : Status) (k : BitVec 3) (c : Option TransportCause) : (s.respond st k c).errCause = c := rfl
@[simp] theorem respond_resetInput (s : State) (st : Status) (k : BitVec 3) (c : Option TransportCause) : (s.respond st k c).resetInput = s.resetInput := rfl
@[simp] theorem respond_port (s : State) (st : Status) (k : BitVec 3) (c : Option TransportCause) : (s.respond st k c).port = s.port := rfl
@[simp] theorem respond_answers (s : State) (st : Status) (k : BitVec 3) (c : Option TransportCause) : (s.respond st k c).answers = s.answers := rfl
@[simp] theorem respond_trace (s : State) (st : Status) (k : BitVec 3) (c : Option TransportCause) : (s.respond st k c).trace = s.trace := rfl
@[simp] theorem respond_responses (s : State) (st : Status) (k : BitVec 3) (c : Option TransportCause) : (s.respond st k c).responses = s.responses ++ [⟨st, k, c⟩] := rfl
@[simp] theorem respond_log (s : State) (st : Status) (k : BitVec 3) (c : Option TransportCause) : (s.respond st k c).log = s.log := rfl

/-! ## emit -/

@[simp] theorem emit_cfg (s : State) (e : LogEvent) : (s.emit e).cfg = s.cfg := rfl
@[simp] theorem emit_ctl (s : State) (e : LogEvent) : (s.emit e).ctl = s.ctl := rfl
@[simp] theorem emit_seq (s : State) (e : LogEvent) : (s.emit e).seq = s.seq := rfl
@[simp] theorem emit_step (s : State) (e : LogEvent) : (s.emit e).step = s.step := rfl
@[simp] theorem emit_seqWords (s : State) (e : LogEvent) : (s.emit e).seqWords = s.seqWords := rfl
@[simp] theorem emit_seqLen (s : State) (e : LogEvent) : (s.emit e).seqLen = s.seqLen := rfl
@[simp] theorem emit_seqOp (s : State) (e : LogEvent) : (s.emit e).seqOp = s.seqOp := rfl
@[simp] theorem emit_pend (s : State) (e : LogEvent) : (s.emit e).pend = s.pend := rfl
@[simp] theorem emit_dev (s : State) (e : LogEvent) : (s.emit e).dev = s.dev := rfl
@[simp] theorem emit_clock (s : State) (e : LogEvent) : (s.emit e).clock = s.clock := rfl
@[simp] theorem emit_status (s : State) (e : LogEvent) : (s.emit e).status = s.status := rfl
@[simp] theorem emit_errStep (s : State) (e : LogEvent) : (s.emit e).errStep = s.errStep := rfl
@[simp] theorem emit_errCause (s : State) (e : LogEvent) : (s.emit e).errCause = s.errCause := rfl
@[simp] theorem emit_resetInput (s : State) (e : LogEvent) : (s.emit e).resetInput = s.resetInput := rfl
@[simp] theorem emit_port (s : State) (e : LogEvent) : (s.emit e).port = s.port := rfl
@[simp] theorem emit_answers (s : State) (e : LogEvent) : (s.emit e).answers = s.answers := rfl
@[simp] theorem emit_trace (s : State) (e : LogEvent) : (s.emit e).trace = s.trace := rfl
@[simp] theorem emit_responses (s : State) (e : LogEvent) : (s.emit e).responses = s.responses := rfl
@[simp] theorem emit_log (s : State) (e : LogEvent) : (s.emit e).log = s.log ++ [e] := rfl

/-! ## withPort -/

@[simp] theorem withPort_cfg (s : State) (items : List PortItem) : (s.withPort items).cfg = s.cfg := rfl
@[simp] theorem withPort_ctl (s : State) (items : List PortItem) : (s.withPort items).ctl = s.ctl := rfl
@[simp] theorem withPort_seq (s : State) (items : List PortItem) : (s.withPort items).seq = s.seq := rfl
@[simp] theorem withPort_step (s : State) (items : List PortItem) : (s.withPort items).step = s.step := rfl
@[simp] theorem withPort_seqWords (s : State) (items : List PortItem) : (s.withPort items).seqWords = s.seqWords := rfl
@[simp] theorem withPort_seqLen (s : State) (items : List PortItem) : (s.withPort items).seqLen = s.seqLen := rfl
@[simp] theorem withPort_seqOp (s : State) (items : List PortItem) : (s.withPort items).seqOp = s.seqOp := rfl
@[simp] theorem withPort_pend (s : State) (items : List PortItem) : (s.withPort items).pend = s.pend := rfl
@[simp] theorem withPort_dev (s : State) (items : List PortItem) : (s.withPort items).dev = s.dev := rfl
@[simp] theorem withPort_clock (s : State) (items : List PortItem) : (s.withPort items).clock = s.clock := rfl
@[simp] theorem withPort_status (s : State) (items : List PortItem) : (s.withPort items).status = s.status := rfl
@[simp] theorem withPort_errStep (s : State) (items : List PortItem) : (s.withPort items).errStep = s.errStep := rfl
@[simp] theorem withPort_errCause (s : State) (items : List PortItem) : (s.withPort items).errCause = s.errCause := rfl
@[simp] theorem withPort_resetInput (s : State) (items : List PortItem) : (s.withPort items).resetInput = s.resetInput := rfl
@[simp] theorem withPort_port (s : State) (items : List PortItem) : (s.withPort items).port = items := rfl
@[simp] theorem withPort_answers (s : State) (items : List PortItem) : (s.withPort items).answers = s.answers := rfl
@[simp] theorem withPort_trace (s : State) (items : List PortItem) : (s.withPort items).trace = s.trace := rfl
@[simp] theorem withPort_responses (s : State) (items : List PortItem) : (s.withPort items).responses = s.responses := rfl
@[simp] theorem withPort_log (s : State) (items : List PortItem) : (s.withPort items).log = s.log := rfl

/-! ## startSequence -/

@[simp] theorem startSequence_cfg (s : State) (op : Op) (ws : List Word) (p : Pend) : (s.startSequence op ws p).cfg = s.cfg := rfl
@[simp] theorem startSequence_ctl (s : State) (op : Op) (ws : List Word) (p : Pend) : (s.startSequence op ws p).ctl = s.ctl := rfl
@[simp] theorem startSequence_seq (s : State) (op : Op) (ws : List Word) (p : Pend) : (s.startSequence op ws p).seq = .busy := rfl
@[simp] theorem startSequence_step (s : State) (op : Op) (ws : List Word) (p : Pend) : (s.startSequence op ws p).step = 0 := rfl
@[simp] theorem startSequence_seqWords (s : State) (op : Op) (ws : List Word) (p : Pend) : (s.startSequence op ws p).seqWords = s.seqWords.load ws := rfl
@[simp] theorem startSequence_seqLen (s : State) (op : Op) (ws : List Word) (p : Pend) : (s.startSequence op ws p).seqLen = BitVec.ofNat 3 ws.length := rfl
@[simp] theorem startSequence_seqOp (s : State) (op : Op) (ws : List Word) (p : Pend) : (s.startSequence op ws p).seqOp = op := rfl
@[simp] theorem startSequence_pend (s : State) (op : Op) (ws : List Word) (p : Pend) : (s.startSequence op ws p).pend = p := rfl
@[simp] theorem startSequence_dev (s : State) (op : Op) (ws : List Word) (p : Pend) : (s.startSequence op ws p).dev = s.dev := rfl
@[simp] theorem startSequence_clock (s : State) (op : Op) (ws : List Word) (p : Pend) : (s.startSequence op ws p).clock = s.clock := rfl
@[simp] theorem startSequence_status (s : State) (op : Op) (ws : List Word) (p : Pend) : (s.startSequence op ws p).status = s.status := rfl
@[simp] theorem startSequence_errStep (s : State) (op : Op) (ws : List Word) (p : Pend) : (s.startSequence op ws p).errStep = s.errStep := rfl
@[simp] theorem startSequence_errCause (s : State) (op : Op) (ws : List Word) (p : Pend) : (s.startSequence op ws p).errCause = s.errCause := rfl
@[simp] theorem startSequence_resetInput (s : State) (op : Op) (ws : List Word) (p : Pend) : (s.startSequence op ws p).resetInput = s.resetInput := rfl
@[simp] theorem startSequence_port (s : State) (op : Op) (ws : List Word) (p : Pend) : (s.startSequence op ws p).port = s.port := rfl
@[simp] theorem startSequence_answers (s : State) (op : Op) (ws : List Word) (p : Pend) : (s.startSequence op ws p).answers = s.answers := rfl
@[simp] theorem startSequence_trace (s : State) (op : Op) (ws : List Word) (p : Pend) : (s.startSequence op ws p).trace = s.trace := rfl
@[simp] theorem startSequence_responses (s : State) (op : Op) (ws : List Word) (p : Pend) : (s.startSequence op ws p).responses = s.responses := rfl
@[simp] theorem startSequence_log (s : State) (op : Op) (ws : List Word) (p : Pend) : (s.startSequence op ws p).log = s.log := rfl

/-! ## recordWrite -/

@[simp] theorem recordWrite_cfg (s : State) (w : Word) (a : Answer) (rest : List Answer) : (s.recordWrite w a rest).cfg = s.cfg := rfl
@[simp] theorem recordWrite_ctl (s : State) (w : Word) (a : Answer) (rest : List Answer) : (s.recordWrite w a rest).ctl = s.ctl := rfl
@[simp] theorem recordWrite_seq (s : State) (w : Word) (a : Answer) (rest : List Answer) : (s.recordWrite w a rest).seq = s.seq := rfl
@[simp] theorem recordWrite_step (s : State) (w : Word) (a : Answer) (rest : List Answer) : (s.recordWrite w a rest).step = s.step := rfl
@[simp] theorem recordWrite_seqWords (s : State) (w : Word) (a : Answer) (rest : List Answer) : (s.recordWrite w a rest).seqWords = s.seqWords := rfl
@[simp] theorem recordWrite_seqLen (s : State) (w : Word) (a : Answer) (rest : List Answer) : (s.recordWrite w a rest).seqLen = s.seqLen := rfl
@[simp] theorem recordWrite_seqOp (s : State) (w : Word) (a : Answer) (rest : List Answer) : (s.recordWrite w a rest).seqOp = s.seqOp := rfl
@[simp] theorem recordWrite_pend (s : State) (w : Word) (a : Answer) (rest : List Answer) : (s.recordWrite w a rest).pend = s.pend := rfl
@[simp] theorem recordWrite_dev (s : State) (w : Word) (a : Answer) (rest : List Answer) : (s.recordWrite w a rest).dev = s.dev := rfl
@[simp] theorem recordWrite_clock (s : State) (w : Word) (a : Answer) (rest : List Answer) : (s.recordWrite w a rest).clock = s.clock := rfl
@[simp] theorem recordWrite_status (s : State) (w : Word) (a : Answer) (rest : List Answer) : (s.recordWrite w a rest).status = s.status := rfl
@[simp] theorem recordWrite_errStep (s : State) (w : Word) (a : Answer) (rest : List Answer) : (s.recordWrite w a rest).errStep = s.errStep := rfl
@[simp] theorem recordWrite_errCause (s : State) (w : Word) (a : Answer) (rest : List Answer) : (s.recordWrite w a rest).errCause = s.errCause := rfl
@[simp] theorem recordWrite_resetInput (s : State) (w : Word) (a : Answer) (rest : List Answer) : (s.recordWrite w a rest).resetInput = s.resetInput := rfl
@[simp] theorem recordWrite_port (s : State) (w : Word) (a : Answer) (rest : List Answer) : (s.recordWrite w a rest).port = s.port := rfl
@[simp] theorem recordWrite_answers (s : State) (w : Word) (a : Answer) (rest : List Answer) : (s.recordWrite w a rest).answers = rest := rfl
@[simp] theorem recordWrite_trace (s : State) (w : Word) (a : Answer) (rest : List Answer) : (s.recordWrite w a rest).trace = s.trace ++ [⟨s.cfg.csId, w, a⟩] := rfl
@[simp] theorem recordWrite_responses (s : State) (w : Word) (a : Answer) (rest : List Answer) : (s.recordWrite w a rest).responses = s.responses := rfl
@[simp] theorem recordWrite_log (s : State) (w : Word) (a : Answer) (rest : List Answer) : (s.recordWrite w a rest).log = s.log := rfl

/-! ## advance -/

@[simp] theorem advance_cfg (s : State) : (s.advance).cfg = s.cfg := rfl
@[simp] theorem advance_ctl (s : State) : (s.advance).ctl = s.ctl := rfl
@[simp] theorem advance_seq (s : State) : (s.advance).seq = s.seq := rfl
@[simp] theorem advance_step (s : State) : (s.advance).step = s.step + 1 := rfl
@[simp] theorem advance_seqWords (s : State) : (s.advance).seqWords = s.seqWords := rfl
@[simp] theorem advance_seqLen (s : State) : (s.advance).seqLen = s.seqLen := rfl
@[simp] theorem advance_seqOp (s : State) : (s.advance).seqOp = s.seqOp := rfl
@[simp] theorem advance_pend (s : State) : (s.advance).pend = s.pend := rfl
@[simp] theorem advance_dev (s : State) : (s.advance).dev = s.dev := rfl
@[simp] theorem advance_clock (s : State) : (s.advance).clock = s.clock := rfl
@[simp] theorem advance_status (s : State) : (s.advance).status = s.status := rfl
@[simp] theorem advance_errStep (s : State) : (s.advance).errStep = s.errStep := rfl
@[simp] theorem advance_errCause (s : State) : (s.advance).errCause = s.errCause := rfl
@[simp] theorem advance_resetInput (s : State) : (s.advance).resetInput = s.resetInput := rfl
@[simp] theorem advance_port (s : State) : (s.advance).port = s.port := rfl
@[simp] theorem advance_answers (s : State) : (s.advance).answers = s.answers := rfl
@[simp] theorem advance_trace (s : State) : (s.advance).trace = s.trace := rfl
@[simp] theorem advance_responses (s : State) : (s.advance).responses = s.responses := rfl
@[simp] theorem advance_log (s : State) : (s.advance).log = s.log := rfl

/-! ## applyPend -/

@[simp] theorem applyPend_cfg (s : State) : (s.applyPend).cfg = s.cfg := rfl
@[simp] theorem applyPend_ctl (s : State) : (s.applyPend).ctl = s.pend.ctl := rfl
@[simp] theorem applyPend_seq (s : State) : (s.applyPend).seq = s.seq := rfl
@[simp] theorem applyPend_step (s : State) : (s.applyPend).step = s.step := rfl
@[simp] theorem applyPend_seqWords (s : State) : (s.applyPend).seqWords = s.seqWords := rfl
@[simp] theorem applyPend_seqLen (s : State) : (s.applyPend).seqLen = s.seqLen := rfl
@[simp] theorem applyPend_seqOp (s : State) : (s.applyPend).seqOp = s.seqOp := rfl
@[simp] theorem applyPend_pend (s : State) : (s.applyPend).pend = s.pend := rfl
@[simp] theorem applyPend_dev (s : State) : (s.applyPend).dev = s.pend.dev := rfl
@[simp] theorem applyPend_clock (s : State) : (s.applyPend).clock = s.pend.clock := rfl
@[simp] theorem applyPend_status (s : State) : (s.applyPend).status = s.status := rfl
@[simp] theorem applyPend_errStep (s : State) : (s.applyPend).errStep = s.errStep := rfl
@[simp] theorem applyPend_errCause (s : State) : (s.applyPend).errCause = s.errCause := rfl
@[simp] theorem applyPend_resetInput (s : State) : (s.applyPend).resetInput = s.resetInput := rfl
@[simp] theorem applyPend_port (s : State) : (s.applyPend).port = s.port := rfl
@[simp] theorem applyPend_answers (s : State) : (s.applyPend).answers = s.answers := rfl
@[simp] theorem applyPend_trace (s : State) : (s.applyPend).trace = s.trace := rfl
@[simp] theorem applyPend_responses (s : State) : (s.applyPend).responses = s.responses := rfl
@[simp] theorem applyPend_log (s : State) : (s.applyPend).log = s.log := rfl

/-! ## enterReset -/

@[simp] theorem enterReset_cfg (s : State) : (s.enterReset).cfg = s.cfg := rfl
@[simp] theorem enterReset_ctl (s : State) : (s.enterReset).ctl = .reset := rfl
@[simp] theorem enterReset_seq (s : State) : (s.enterReset).seq = s.seq := rfl
@[simp] theorem enterReset_step (s : State) : (s.enterReset).step = s.step := rfl
@[simp] theorem enterReset_seqWords (s : State) : (s.enterReset).seqWords = s.seqWords := rfl
@[simp] theorem enterReset_seqLen (s : State) : (s.enterReset).seqLen = s.seqLen := rfl
@[simp] theorem enterReset_seqOp (s : State) : (s.enterReset).seqOp = s.seqOp := rfl
@[simp] theorem enterReset_pend (s : State) : (s.enterReset).pend = s.pend := rfl
@[simp] theorem enterReset_dev (s : State) : (s.enterReset).dev = s.pend.dev := rfl
@[simp] theorem enterReset_clock (s : State) : (s.enterReset).clock = none := rfl
@[simp] theorem enterReset_status (s : State) : (s.enterReset).status = s.status := rfl
@[simp] theorem enterReset_errStep (s : State) : (s.enterReset).errStep = s.errStep := rfl
@[simp] theorem enterReset_errCause (s : State) : (s.enterReset).errCause = s.errCause := rfl
@[simp] theorem enterReset_resetInput (s : State) : (s.enterReset).resetInput = s.resetInput := rfl
@[simp] theorem enterReset_port (s : State) : (s.enterReset).port = s.port := rfl
@[simp] theorem enterReset_answers (s : State) : (s.enterReset).answers = s.answers := rfl
@[simp] theorem enterReset_trace (s : State) : (s.enterReset).trace = s.trace := rfl
@[simp] theorem enterReset_responses (s : State) : (s.enterReset).responses = s.responses := rfl
@[simp] theorem enterReset_log (s : State) : (s.enterReset).log = s.log := rfl

/-! ## takeReset -/

@[simp] theorem takeReset_cfg (s : State) : (s.takeReset).cfg = s.cfg := rfl
@[simp] theorem takeReset_ctl (s : State) : (s.takeReset).ctl = .uninit := rfl
@[simp] theorem takeReset_seq (s : State) : (s.takeReset).seq = .idle := rfl
@[simp] theorem takeReset_step (s : State) : (s.takeReset).step = 0 := rfl
@[simp] theorem takeReset_seqWords (s : State) : (s.takeReset).seqWords = ⟨0, 0, 0, 0, 0⟩ := rfl
@[simp] theorem takeReset_seqLen (s : State) : (s.takeReset).seqLen = 0 := rfl
@[simp] theorem takeReset_seqOp (s : State) : (s.takeReset).seqOp = .init := rfl
@[simp] theorem takeReset_pend (s : State) : (s.takeReset).pend = ⟨.uninit, .defaults, none⟩ := rfl
@[simp] theorem takeReset_dev (s : State) : (s.takeReset).dev = .defaults := rfl
@[simp] theorem takeReset_clock (s : State) : (s.takeReset).clock = none := rfl
@[simp] theorem takeReset_status (s : State) : (s.takeReset).status = .none := rfl
@[simp] theorem takeReset_errStep (s : State) : (s.takeReset).errStep = 0 := rfl
@[simp] theorem takeReset_errCause (s : State) : (s.takeReset).errCause = none := rfl
@[simp] theorem takeReset_resetInput (s : State) : (s.takeReset).resetInput = false := rfl
@[simp] theorem takeReset_port (s : State) : (s.takeReset).port = s.port := rfl
@[simp] theorem takeReset_answers (s : State) : (s.takeReset).answers = s.answers := rfl
@[simp] theorem takeReset_trace (s : State) : (s.takeReset).trace = s.trace := rfl
@[simp] theorem takeReset_responses (s : State) : (s.takeReset).responses = s.responses := rfl
@[simp] theorem takeReset_log (s : State) : (s.takeReset).log = s.log := rfl

/-! ## Updates that are others by name -/

@[simp] theorem takeError_eq (s : State) (e : ErrorKind) (k : BitVec 3) (c : Option TransportCause) :
    s.takeError e k c = s.respond e.status k c := rfl
@[simp] theorem endOk_eq (s : State) : s.endOk = s.respond .ok 0 none := rfl
@[simp] theorem commit_eq (s : State) : s.commit = s.applyPend.respond .ok 0 none := rfl
@[simp] theorem abort_eq (s : State) (c : TransportCause) :
    s.abort c = s.respond .transportError (s.step + 1) (some c) := rfl
@[simp] theorem endShutdown_ok (s : State) : s.endShutdown .ok = s.enterReset.respond .ok 0 none := rfl
@[simp] theorem endShutdown_err (s : State) (c : TransportCause) :
    s.endShutdown (.err c) = (s.enterReset.emit (.transportError 1 c)).respond .ok 0 none := rfl

end Sys2Proof.Machine.State

namespace Sys2Proof.Machine

@[simp] theorem errorKind_status_ne_ok (e : ErrorKind) : e.status ≠ .ok := by cases e <;> decide
@[simp] theorem errorKind_status_ne_none (e : ErrorKind) : e.status ≠ .none := by cases e <;> decide

/-! ## DeviceState by channel -/

namespace DeviceState

@[simp] theorem setChannel_mode (d : DeviceState) (c : Chan) (f : Rat) (p : PhaseWord) :
    (d.setChannel c f p).mode = d.mode := rfl
@[simp] theorem setChannel_chan (d : DeviceState) (c : Chan) (f : Rat) (p : PhaseWord) :
    (d.setChannel c f p).chan = c := rfl
theorem setChannel_freq (d : DeviceState) (c c' : Chan) (f : Rat) (p : PhaseWord) :
    (d.setChannel c f p).freq c' = if c' = c then f else d.freq c' := by
  rcases BitVec.eq_zero_or_eq_one c with rfl | rfl <;>
    rcases BitVec.eq_zero_or_eq_one c' with rfl | rfl <;> rfl
theorem setChannel_phase (d : DeviceState) (c c' : Chan) (f : Rat) (p : PhaseWord) :
    (d.setChannel c f p).phase c' = if c' = c then p else d.phase c' := by
  rcases BitVec.eq_zero_or_eq_one c with rfl | rfl <;>
    rcases BitVec.eq_zero_or_eq_one c' with rfl | rfl <;> rfl

end DeviceState

/-! ## The words of a sequence -/

namespace SeqWords

theorem get_eq_toList (v : SeqWords) (k : Nat) : v.get k = v.toList[k]? := by
  rcases k with _ | _ | _ | _ | _ | k <;> rfl

theorem get_isSome (v : SeqWords) (k : Nat) : (v.get k).isSome = decide (k < 5) := by
  rcases k with _ | _ | _ | _ | _ | k <;> simp [get]

/-- Loading at most five words makes them the first words of the sequence (R131). -/
theorem take_load (v : SeqWords) (ws : List Word) (h : ws.length ≤ 5) :
    (v.load ws).toList.take ws.length = ws := by
  match ws with
  | [] => rfl
  | [_] => rfl
  | [_, _] => rfl
  | [_, _, _] => rfl
  | [_, _, _, _] => rfl
  | [_, _, _, _, _] => rfl
  | _ :: _ :: _ :: _ :: _ :: _ :: _ => simp at h; omega

end SeqWords

/-! ## Transport causes -/

/-- A cause is its token. -/
theorem cause_eq_iff (a b : TransportCause) : a = b ↔ a.token = b.token := by
  cases a; cases b; simp

@[simp] theorem ofToken_token (c : TransportCause) : TransportCause.ofToken c.token = c := by
  cases c with
  | mk n h => simp [TransportCause.ofToken, h]

end Sys2Proof.Machine
end

