-- ==== Sys2Proof/Laws/Ops.lean ====
section
/-! SUPPORT. What each shared operation can do, said once: acceptance, the write step, the dispatch and
the step. Later proofs cite these instead of unfolding the operations. -/

namespace Sys2Proof.Machine

/-! ## Acceptance -/

theorem acceptCommand_busy {op : Op} {o : Except Fault AcceptOutcome} {rest : List PortItem} {s : State}
    (h : s.seq = .busy) : acceptCommand op o rest s = .next s := by
  simp [acceptCommand, h]

theorem acceptCommand_idle {op : Op} {o : AcceptOutcome} {rest : List PortItem} {s : State}
    (h : s.seq = .idle) :
    acceptCommand op (.ok o) rest s = .next ((s.withPort rest).takeOutcome op o) := by
  simp [acceptCommand, h]

/-- All acceptance can do. -/
theorem acceptCommand_next {op : Op} {o : Except Fault AcceptOutcome} {rest : List PortItem}
    {s t : State} (h : acceptCommand op o rest s = .next t) :
    (s.seq = .busy ∧ t = s) ∨
    (s.seq = .idle ∧ ∃ a, o = .ok a ∧ t = (s.withPort rest).takeOutcome op a) := by
  unfold acceptCommand at h
  split at h
  · exact .inl ⟨‹_›, by simpa using h.symm⟩
  · split at h
    · cases h
    · exact .inr ⟨‹_›, _, rfl, by simpa using h.symm⟩

/-- All that an acceptance which ended at once with an error changed: the response registers and the
host's stream (R136, R188). -/
theorem acceptCommand_rejected {op : Op} {o : Except Fault AcceptOutcome} {rest : List PortItem}
    {s t : State} (hs : s.seq = .idle) (h : acceptCommand op o rest s = .next t)
    (ht : t.seq = .idle) (hn : t.status ≠ .ok) :
    t = { s with
      port := rest
      status := t.status
      errStep := 0
      errCause := none
      responses := s.responses ++ [⟨t.status, 0, none⟩] } := by
  obtain ⟨hb, -⟩ | ⟨-, a, -, rfl⟩ := acceptCommand_next h
  · simp [hs] at hb
  · cases a with
    | reject e => simp [State.takeOutcome, State.takeError, State.respond, State.withPort, hs]
    | doneNoWrite ev => simp [State.takeOutcome, State.endOk, State.respond] at hn
    | run ws p => simp [State.takeOutcome, State.startSequence] at ht

@[simp] theorem takeOutcome_reject (s : State) (op : Op) (e : ErrorKind) :
    s.takeOutcome op (.reject e) = s.respond e.status 0 none := rfl
@[simp] theorem takeOutcome_doneNoWrite (s : State) (op : Op) (ev : LogEvent) :
    s.takeOutcome op (.doneNoWrite ev) = (s.emit ev).respond .ok 0 none := rfl
@[simp] theorem takeOutcome_run (s : State) (op : Op) (ws : List Word) (p : Pend) :
    s.takeOutcome op (.run ws p) = s.startSequence op ws p := rfl

/-! ## The commands' rules -/

/-- INIT's rule, by cases (R132). -/
theorem initRule_cases (s : State) (clk : Rat) :
    (s.ctl = .ready ∧ initRule s clk = .reject .protocolStateError) ∨
    (s.ctl ≠ .ready ∧ clk ≤ 0 ∧ initRule s clk = .reject .configError) ∨
    (s.ctl ≠ .ready ∧ 0 < clk ∧ initRule s clk = .run (initWords s.cfg) (initPend clk)) := by
  by_cases h : s.ctl = .ready
  · exact .inl ⟨h, by simp [initRule, h]⟩
  · by_cases hc : 0 < clk
    · exact .inr (.inr ⟨h, hc, by simp [initRule, h, clockAdmitted, hc]⟩)
    · exact .inr (.inl ⟨h, not_lt.mp hc, by simp [initRule, h, clockAdmitted, hc]⟩)

/-- SET_MODE's rule, by cases (R134). -/
theorem setModeRule_cases (s : State) (code : BitVec 2) :
    (s.ctl ≠ .ready ∧ setModeRule s code = .reject .protocolStateError) ∨
    (s.ctl = .ready ∧ modeOfCode code = none ∧ setModeRule s code = .reject .outOfRange) ∨
    (s.ctl = .ready ∧ ∃ m, modeOfCode code = some m ∧
      setModeRule s code = .run (setModeWords s m) (setModePend s m)) := by
  by_cases h : s.ctl = .ready
  · cases hm : modeOfCode code with
    | none => exact .inr (.inl ⟨h, rfl, by simp [setModeRule, h, hm]⟩)
    | some m => exact .inr (.inr ⟨h, m, rfl, by simp [setModeRule, h, hm]⟩)
  · exact .inl ⟨h, by simp [setModeRule, h]⟩

/-- SHUTDOWN's rule, by cases (R135). -/
theorem shutdownRule_cases (s : State) :
    (s.ctl ≠ .ready ∧ shutdownRule s = .doneNoWrite .protocolStateError) ∨
    (s.ctl = .ready ∧ shutdownRule s = .run [resetWord s.cfg] shutdownPend) := by
  by_cases h : s.ctl = .ready
  · exact .inr ⟨h, by simp [shutdownRule, h]⟩
  · exact .inl ⟨h, by simp [shutdownRule, h]⟩

/-- SET_FREQ's rule, by cases (R133, R187). -/
theorem setFreqRule_cases (s : State) (f : Rat) (c : Chan) (p : Int) :
    (s.ctl ≠ .ready ∧ setFreqRule s f c p = .ok (.reject .protocolStateError)) ∨
    (s.ctl = .ready ∧ ¬ 0 < f ∧ setFreqRule s f c p = .ok (.reject .outOfRange)) ∨
    (s.ctl = .ready ∧ 0 < f ∧ (∀ clk, s.clock = some clk → clk ≤ 0) ∧
      setFreqRule s f c p = .error .clockOutsideDomain) ∨
    (s.ctl = .ready ∧ 0 < f ∧ ∃ clk, s.clock = some clk ∧ 0 < clk ∧
      ∃ raw, raw = roundP s.cfg.round (f * 2 ^ 28 / clk) ∧
        ((maxTuningWord < raw ∨ p < 0 ∨ 4095 < p) ∧
            setFreqRule s f c p = .ok (.reject .outOfRange) ∨
         raw ≤ maxTuningWord ∧ 0 ≤ p ∧ p ≤ 4095 ∧ setFreqRule s f c p =
            .ok (.run (setFreqWords s.cfg s.dev.mode c (clampTuningWord raw) p)
              (setFreqPend s f c p)))) := by
  by_cases h : s.ctl = .ready
  · by_cases hf : 0 < f
    · cases hc : s.clock with
      | none => exact .inr (.inr (.inl ⟨h, hf, by simp, by simp [setFreqRule, h, hf, hc, freqPositive]⟩))
      | some clk =>
        by_cases hk : clk ≤ 0
        · exact .inr (.inr (.inl ⟨h, hf, by simpa using hk,
            by simp [setFreqRule, h, hf, hc, freqPositive, twRaw, hk]⟩))
        · refine .inr (.inr (.inr ⟨h, hf, clk, rfl, not_le.mp hk, _, rfl, ?_⟩))
          by_cases hr : roundP s.cfg.round (f * 2 ^ 28 / clk) ≤ maxTuningWord
          · by_cases hp : 0 ≤ p ∧ p ≤ 4095
            · exact .inr ⟨hr, hp.1, hp.2, by
                simp [setFreqRule, h, hf, hc, freqPositive, twRaw, hk, rawFits, hr, phaseAdmitted, hp]⟩
            · refine .inl ⟨.inr (by omega), ?_⟩
              simp [setFreqRule, h, hf, hc, freqPositive, twRaw, hk, rawFits, hr, phaseAdmitted, hp]
          · refine .inl ⟨.inl (not_le.mp hr), ?_⟩
            simp [setFreqRule, h, hf, hc, freqPositive, twRaw, hk, rawFits, hr]
    · exact .inr (.inl ⟨h, hf, by simp [setFreqRule, h, hf, freqPositive]⟩)
  · exact .inl ⟨h, by simp [setFreqRule, h]⟩

/-! ## The write step -/

theorem scheduledWord_busy {s : State} {w : Word} (h : s.scheduledWord = some w) : s.seq = .busy := by
  unfold State.scheduledWord at h
  split at h
  · cases h
  · assumption

theorem writeStep_wait {w : Word} {s : State} (h : s.answers = []) : writeStep w s = .next s := by
  unfold writeStep
  split
  · simp [h]
  · rfl

theorem writeStep_answer {w : Word} {s : State} {a : Answer} {rest : List Answer}
    (hw : s.scheduledWord = some w) (ha : s.answers = a :: rest) :
    writeStep w s = .next ((s.recordWrite w a rest).takeAnswer a) := by
  simp [writeStep, hw, ha]

/-- All the write step can do: it always goes on. -/
theorem writeStep_cases (w : Word) (s : State) :
    writeStep w s = .next s ∨
    ∃ a rest, s.scheduledWord = some w ∧ s.answers = a :: rest ∧
      writeStep w s = .next ((s.recordWrite w a rest).takeAnswer a) := by
  by_cases hw : s.scheduledWord = some w
  · cases ha : s.answers with
    | nil => exact .inl (writeStep_wait ha)
    | cons a rest => exact .inr ⟨a, rest, hw, rfl, writeStep_answer hw ha⟩
  · exact .inl (by simp [writeStep, hw])

/-- All an answer can do (R139, R141 to R143). -/
theorem takeAnswer_cases (s : State) (a : Answer) :
    (a = .ok ∧ s.step + 1 ≠ s.seqLen ∧ s.takeAnswer a = s.advance) ∨
    (a = .ok ∧ s.step + 1 = s.seqLen ∧ s.seqOp ≠ .shutdown ∧
      s.takeAnswer a = s.advance.applyPend.respond .ok 0 none) ∨
    (a = .ok ∧ s.step + 1 = s.seqLen ∧ s.seqOp = .shutdown ∧
      s.takeAnswer a = s.advance.enterReset.respond .ok 0 none) ∨
    (∃ c, a = .err c ∧ s.seqOp ≠ .shutdown ∧
      s.takeAnswer a = s.respond .transportError (s.step + 1) (some c)) ∨
    (∃ c, a = .err c ∧ s.seqOp = .shutdown ∧
      s.takeAnswer a = (s.enterReset.emit (.transportError 1 c)).respond .ok 0 none) := by
  cases a with
  | ok =>
    by_cases hl : s.step + 1 = s.seqLen
    · by_cases ho : s.seqOp = .shutdown
      · exact .inr (.inr (.inl ⟨rfl, hl, ho, by
          rw [State.takeAnswer, State.takeOk, if_pos hl, ho]; rfl⟩))
      · refine .inr (.inl ⟨rfl, hl, ho, ?_⟩)
        rw [State.takeAnswer, State.takeOk, if_pos hl]
        cases h : s.seqOp <;> first | rfl | exact absurd h ho
    · exact .inl ⟨rfl, hl, by rw [State.takeAnswer, State.takeOk, if_neg hl]⟩
  | err c => cases ho : s.seqOp <;> simp [State.takeAnswer, State.takeErr, ho]

/-- An answer's effect writes neither the trace nor the inputs nor the configuration. -/
theorem takeAnswer_frame (s : State) (a : Answer) :
    (s.takeAnswer a).trace = s.trace ∧ (s.takeAnswer a).answers = s.answers ∧
      (s.takeAnswer a).port = s.port ∧ (s.takeAnswer a).cfg = s.cfg ∧
      (s.takeAnswer a).resetInput = s.resetInput := by
  obtain ⟨-, -, h⟩ | ⟨-, -, -, h⟩ | ⟨-, -, -, h⟩ | ⟨_, -, -, h⟩ | ⟨_, -, -, h⟩ := takeAnswer_cases s a
  all_goals
    rw [h]
    exact ⟨rfl, rfl, rfl, rfl, rfl⟩

/-! ## Dispatch: one equation per arm, the shared operation an instruction's meaning is -/

theorem exec_init (clk : Rat) (s : State) :
    exec (.init clk) s = acceptCommand .init (.ok (initRule s clk)) s.port.tail s := rfl
theorem exec_setFreq (f : Rat) (c : Chan) (p : Int) (s : State) :
    exec (.setFreq f c p) s = acceptCommand .setFreq (setFreqRule s f c p) s.port.tail s := rfl
theorem exec_setMode (code : BitVec 2) (s : State) :
    exec (.setMode code) s = acceptCommand .setMode (.ok (setModeRule s code)) s.port.tail s := rfl
theorem exec_shutdown (s : State) :
    exec (.shutdown) s = acceptCommand .shutdown (.ok (shutdownRule s)) s.port.tail s := rfl
theorem exec_sine (f : Rat) (s : State) :
    exec (.sine f) s = acceptCommand .setMode (.ok (setModeRule s (modeCode .sine))) (lineSetFreq f :: s.port.tail) s := rfl
theorem exec_triangle (f : Rat) (s : State) :
    exec (.triangle f) s = acceptCommand .setMode (.ok (setModeRule s (modeCode .triangle))) (lineSetFreq f :: s.port.tail) s := rfl
theorem exec_square (f : Rat) (s : State) :
    exec (.square f) s = acceptCommand .setMode (.ok (setModeRule s (modeCode .square))) (lineSetFreq f :: s.port.tail) s := rfl
theorem exec_exit (s : State) :
    exec (.exit) s = acceptCommand .shutdown (.ok (shutdownRule s)) s.port.tail s := rfl
theorem exec_quit (s : State) :
    exec (.quit) s = acceptCommand .shutdown (.ok (shutdownRule s)) s.port.tail s := rfl
theorem exec_controlWord (m : WaveformMode) (c : Chan) (s : State) :
    exec (.controlWord m c) s = writeStep (controlWord s.cfg m c) s := rfl
theorem exec_resetQualifiedWord (m : WaveformMode) (c : Chan) (s : State) :
    exec (.resetQualifiedWord m c) s = writeStep (resetQualifiedWord s.cfg m c) s := rfl
theorem exec_resetWord (s : State) :
    exec (.resetWord) s = writeStep (resetWord s.cfg) s := rfl
theorem exec_freq0 (p : Nat) (s : State) :
    exec (.freq0 p) s = writeStepChecked (checkedFreqRegisterWord p 0 false) s := rfl
theorem exec_freq1 (p : Nat) (s : State) :
    exec (.freq1 p) s = writeStepChecked (checkedFreqRegisterWord p 1 false) s := rfl
theorem exec_phase (p : Int) (s : State) :
    exec (.phase p) s = writeStep (phaseRegisterWord p) s := rfl

/-- Acceptance of an instruction's command, by what its rule gives. -/
theorem accepted_next {op : Op} {o : Except Fault AcceptOutcome} {rest : List PortItem} {s t : State}
    (h : acceptCommand op o rest s = .next t) (hr : ∀ a, o = .ok a → RuleGives s op a) :
    t = s ∨ s.seq = .idle ∧ ∃ op o rest, RuleGives s op o ∧ t = (s.withPort rest).takeOutcome op o := by
  obtain ⟨-, rfl⟩ | ⟨hs, a, ha, rfl⟩ := acceptCommand_next h
  · exact .inl rfl
  · exact .inr ⟨hs, op, a, rest, hr a ha, rfl⟩

/-- The write step, by what it takes. -/
theorem written_next {w : Word} {s t : State} (h : writeStep w s = .next t) :
    t = s ∨ ∃ w a rest, s.scheduledWord = some w ∧ s.answers = a :: rest ∧
      t = (s.recordWrite w a rest).takeAnswer a := by
  obtain h' | ⟨a, rest, hw, ha, h'⟩ := writeStep_cases w s
  · rw [h'] at h; exact .inl (by simpa using h.symm)
  · rw [h'] at h; exact .inr ⟨w, a, rest, hw, ha, by simpa using h.symm⟩

/-- All an instruction can do when it goes on: hold the state, be accepted as a command, or take the
answer to the word it hands over. -/
theorem exec_next {i : Instr} {s t : State} (h : exec i s = .next t) :
    t = s ∨
    (s.seq = .idle ∧ ∃ op o rest, RuleGives s op o ∧ t = (s.withPort rest).takeOutcome op o) ∨
    (∃ w a rest, s.scheduledWord = some w ∧ s.answers = a :: rest ∧
      t = (s.recordWrite w a rest).takeAnswer a) := by
  have checked {w : Except Refusal Word} (h : writeStepChecked w s = .next t) :
      ∃ w, writeStep w s = .next t := by
    cases w with
    | error r => simp [writeStepChecked] at h
    | ok w => exact ⟨w, h⟩
  cases i with
  | init clk =>
    refine (accepted_next (exec_init clk s ▸ h) ?_).imp_right .inl
    exact fun a ha => ⟨clk, by simpa using ha⟩
  | setFreq f c p =>
    refine (accepted_next (exec_setFreq f c p s ▸ h) ?_).imp_right .inl
    exact fun a ha => ⟨f, c, p, ha⟩
  | setMode code =>
    refine (accepted_next (exec_setMode code s ▸ h) ?_).imp_right .inl
    exact fun a ha => ⟨code, by simpa using ha⟩
  | shutdown =>
    refine (accepted_next (exec_shutdown s ▸ h) ?_).imp_right .inl
    exact fun a ha => by simpa [RuleGives] using ha
  | sine f =>
    refine (accepted_next (exec_sine f s ▸ h) ?_).imp_right .inl
    exact fun a ha => ⟨_, by simpa using ha⟩
  | triangle f =>
    refine (accepted_next (exec_triangle f s ▸ h) ?_).imp_right .inl
    exact fun a ha => ⟨_, by simpa using ha⟩
  | square f =>
    refine (accepted_next (exec_square f s ▸ h) ?_).imp_right .inl
    exact fun a ha => ⟨_, by simpa using ha⟩
  | exit =>
    refine (accepted_next (exec_exit s ▸ h) ?_).imp_right .inl
    exact fun a ha => by simpa [RuleGives] using ha
  | quit =>
    refine (accepted_next (exec_quit s ▸ h) ?_).imp_right .inl
    exact fun a ha => by simpa [RuleGives] using ha
  | controlWord m c => exact (written_next h).imp_right .inr
  | resetQualifiedWord m c => exact (written_next h).imp_right .inr
  | resetWord => exact (written_next h).imp_right .inr
  | freq0 p => exact (written_next (checked h).choose_spec).imp_right .inr
  | freq1 p => exact (written_next (checked h).choose_spec).imp_right .inr
  | phase p => exact (written_next h).imp_right .inr

/-! ## The step -/

/-- All a step can do when it goes on: take the reset event, hold the state, accept a command, or take
the answer to the scheduled word. -/
theorem step_next {s t : State} (h : step s = .next t) :
    (s.resetInput = true ∧ t = s.takeReset) ∨
    (s.resetInput = false ∧ t = s) ∨
    (s.resetInput = false ∧ s.seq = .idle ∧ ∃ op o rest, RuleGives s op o ∧
      t = (s.withPort rest).takeOutcome op o) ∨
    (s.resetInput = false ∧ ∃ w a rest, s.scheduledWord = some w ∧ s.answers = a :: rest ∧
      t = (s.recordWrite w a rest).takeAnswer a) := by
  unfold step at h
  split at h
  · exact .inl ⟨‹_›, by simpa using h.symm⟩
  · have hr : s.resetInput = false := by simpa using ‹¬ s.resetInput = true›
    split at h
    · unfold stepNothing at h
      split at h
      · exact .inr (.inl ⟨hr, by simpa using h.symm⟩)
      · cases h
    · split at h
      · obtain rfl | ⟨hs, op, o, rest, hg, rfl⟩ | ⟨w, a, rest, hw, ha, rfl⟩ := exec_next h
        · exact .inr (.inl ⟨hr, rfl⟩)
        · exact .inr (.inr (.inl ⟨hr, hs, op, o, rest, hg, rfl⟩))
        · exact .inr (.inr (.inr ⟨hr, w, a, rest, hw, ha, rfl⟩))
      · obtain rfl | ⟨w, a, rest, hw, ha, rfl⟩ := written_next h
        · exact .inr (.inl ⟨hr, rfl⟩)
        · exact .inr (.inr (.inr ⟨hr, w, a, rest, hw, ha, rfl⟩))

/-- The step of a scheduled word that is no word of R74 is its write step all the same (log entry 17). -/
theorem step_undecodable {s : State} {w : Word} {d : DecodeError} (hr : s.resetInput = false)
    (hw : s.scheduledWord = some w) (hd : decodeWord s.cfg w = .error d) : step s = writeStep w s := by
  simp [step, hr, fetch, scheduledWord_busy hw, hw, decode, decodeWord_error_word hd, hd]

end Sys2Proof.Machine
end

