-- ==== Sys2Proof/Laws/PerInstr.lean ====
section
/-! SUPPORT. The family `TableForm`, one lemma per instruction: the encoding of each instruction has the
form its row of spec/opcode_table.json gives it. -/

namespace Sys2Proof.Laws.TableForm

/-- The `mask` and `match` of a register-word row of the opcode table. -/
def row : Instr → Option (Word × Word)
  | .init _ => none
  | .setFreq _ _ _ => none
  | .setMode _ => none
  | .shutdown => none
  | .sine _ => none
  | .triangle _ => none
  | .square _ => none
  | .exit => none
  | .quit => none
  | .controlWord _ _ => some (0xF7D5, 0x2000)
  | .resetQualifiedWord _ _ => some (0xF7D5, 0x2100)
  | .resetWord => some (0xFFFF, 0x0100)
  | .freq0 _ => some (0xC000, 0x4000)
  | .freq1 _ => some (0xC000, 0x8000)
  | .phase _ => some (0xF000, 0xC000)

/-- The `encoding` of a command row of the opcode table. -/
def opCode : Instr → Option (BitVec 2)
  | .init _ => some 0b00
  | .setFreq _ _ _ => some 0b01
  | .setMode _ => some 0b10
  | .shutdown => some 0b11
  | .sine _ => none
  | .triangle _ => none
  | .square _ => none
  | .exit => none
  | .quit => none
  | .controlWord _ _ => none
  | .resetQualifiedWord _ _ => none
  | .resetWord => none
  | .freq0 _ => none
  | .freq1 _ => none
  | .phase _ => none

/-- Under R6's values, a register word has its row's fixed bits, a command its row's op code, and a
pseudo-instruction is neither. -/
def Statement (i : Instr) : Prop :=
  ∀ cfg : Config, cfg.TableValues →
    match encode cfg i with
    | .word w => ∃ mask pattern, row i = some (mask, pattern) ∧ w &&& mask = pattern
    | .port (.command r) => opCode i = some r.op
    | .port (.line _) => row i = none ∧ opCode i = none

/-- A word under a mask that keeps only prefix bits, the payload below the prefix. -/
theorem prefix_and_mask {n : Nat} (w mask pre : Word) (p : BitVec n) (hw : w = pre ||| p.setWidth 16)
    (hmask : ∀ k, k < n → mask.getLsbD k = false) : w &&& mask = pre &&& mask := by
  subst hw
  apply BitVec.eq_of_getLsbD_eq
  intro k _
  by_cases hn : k < n
  · simp [hmask k hn]
  · simp [BitVec.getLsbD_of_ge p k (not_lt.mp hn)]

theorem init (clk : Rat) : Statement (.init clk) := fun _ _ => rfl
theorem setFreq (f : Rat) (c : Chan) (p : Int) : Statement (.setFreq f c p) := fun _ _ => rfl
theorem setMode (code : BitVec 2) : Statement (.setMode code) := fun _ _ => rfl
theorem shutdown : Statement .shutdown := fun _ _ => rfl
theorem sine (f : Rat) : Statement (.sine f) := fun _ _ => ⟨rfl, rfl⟩
theorem triangle (f : Rat) : Statement (.triangle f) := fun _ _ => ⟨rfl, rfl⟩
theorem square (f : Rat) : Statement (.square f) := fun _ _ => ⟨rfl, rfl⟩
theorem exit : Statement .exit := fun _ _ => ⟨rfl, rfl⟩
theorem quit : Statement .quit := fun _ _ => ⟨rfl, rfl⟩

theorem controlWord (m : WaveformMode) (c : Chan) : Statement (.controlWord m c) := by
  rintro cfg ⟨h1, h2, h3, h4, h5, h6, h7⟩
  refine ⟨_, _, rfl, ?_⟩
  rcases BitVec.eq_zero_or_eq_one c with rfl | rfl <;> cases m <;>
    simp [Machine.controlWord, Machine.modeBits, Machine.fselectBits, h1, h2, h4, h5, h6]

theorem resetQualifiedWord (m : WaveformMode) (c : Chan) : Statement (.resetQualifiedWord m c) := by
  rintro cfg ⟨h1, h2, h3, h4, h5, h6, h7⟩
  refine ⟨_, _, rfl, ?_⟩
  rcases BitVec.eq_zero_or_eq_one c with rfl | rfl <;> cases m <;>
    simp [Machine.resetQualifiedWord, Machine.controlWord, Machine.modeBits, Machine.fselectBits,
      h1, h2, h3, h4, h5, h6]

theorem resetWord : Statement .resetWord := by
  rintro cfg ⟨-, -, -, -, -, -, h7⟩
  exact ⟨_, _, rfl, by simp [Machine.resetWord, h7]⟩

theorem freq0 (p : Nat) : Statement (.freq0 p) := fun _ _ =>
  ⟨_, _, rfl, prefix_and_mask _ _ 0x4000 (BitVec.ofNat 14 p) rfl (by decide)⟩

theorem freq1 (p : Nat) : Statement (.freq1 p) := fun _ _ =>
  ⟨_, _, rfl, prefix_and_mask _ _ 0x8000 (BitVec.ofNat 14 p) rfl (by decide)⟩

theorem phase (p : Int) : Statement (.phase p) := fun _ _ =>
  ⟨_, _, rfl, prefix_and_mask _ _ 0xC000 (Machine.phaseField p) rfl (by decide)⟩

end Sys2Proof.Laws.TableForm
end

