-- ==== Sys2Proof/Machine/Assembly.lean ====
section
/-! DEFINITION. The assembly syntax of commands (30_encoding.md R87), the front end's line forms once the
words stand apart (R88, R89), and the text of a trace (R90). An assembler's work, done before RES: no
step reads this file (log entry 13). -/

namespace Sys2Proof.Machine.Assembly

/-- Ends the token being read. -/
def flush (cur : List Char) (rest : List (List Char)) : List (List Char) :=
  if cur.isEmpty then rest else cur :: rest

/-- The words of a line; a comma is a word of its own. -/
def tokenize (cur : List Char) : List Char → List (List Char)
  | [] => flush cur []
  | c :: cs =>
    if c = ' ' then flush cur (tokenize [] cs)
    else if c = ',' then flush cur ([','] :: tokenize [] cs)
    else tokenize (cur ++ [c]) cs

/-- The value of a decimal digit. -/
def digit (c : Char) : Option Nat :=
  if 48 ≤ c.toNat ∧ c.toNat ≤ 57 then some (c.toNat - 48) else none

/-- The value of decimal digits read after `acc`. -/
def digitsValue (acc : Nat) : List Char → Option Nat
  | [] => some acc
  | c :: cs =>
    match digit c with
    | none => none
    | some d => digitsValue (acc * 10 + d) cs

/-- A non-empty decimal number. -/
def parseNat (cs : List Char) : Option Nat := if cs.isEmpty then none else digitsValue 0 cs

/-- The part before the first `c`, and the part after it where there is a `c`. -/
def cutAt (c : Char) (cs : List Char) : List Char × Option (List Char) :=
  (cs.takeWhile (· != c),
    match cs.dropWhile (· != c) with
    | [] => none
    | _ :: rest => some rest)

/-- `p/q`, denoting the exact rational (R87). -/
def parseQuotient (p q : List Char) : Option Rat :=
  match parseNat p, parseNat q with
  | some p, some q => if q = 0 then none else some ((p : Rat) / (q : Rat))
  | _, _ => none

/-- A decimal fraction, denoting the exact rational (R87). -/
def parseDecimal (whole frac : List Char) : Option Rat :=
  match parseNat whole, parseNat frac with
  | some w, some f => some ((w : Rat) + (f : Rat) / (10 : Rat) ^ frac.length)
  | _, _ => none

/-- An unsigned number: an integer, a decimal fraction or `p/q` (R87). -/
def parseUnsigned (cs : List Char) : Option Rat :=
  match cutAt '/' cs with
  | (p, some q) => parseQuotient p q
  | (_, none) =>
    match cutAt '.' cs with
    | (w, some f) => parseDecimal w f
    | (_, none) => (parseNat cs).map (fun n => (n : Rat))

/-- A number, with a sign where it is negative (95 T-IN-3). -/
def parseRat : List Char → Option Rat
  | '-' :: cs => (parseUnsigned cs).map (fun q => -q)
  | cs => parseUnsigned cs

/-- A phase: a decimal integer (95 T-SF-11 has a negative one). -/
def parseInt : List Char → Option Int
  | '-' :: cs => (parseNat cs).map (fun n => -(n : Int))
  | cs => (parseNat cs).map (fun n => (n : Int))

/-- A channel, 0 or 1. -/
def parseChan (cs : List Char) : Option Chan :=
  if cs = ['0'] then some 0 else if cs = ['1'] then some 1 else none

/-- `SINE|TRIANGLE|SQUARE`, as the mode code of R83. -/
def parseMode (cs : List Char) : Option (BitVec 2) :=
  if cs = "SINE".toList then some 0b00
  else if cs = "TRIANGLE".toList then some 0b01
  else if cs = "SQUARE".toList then some 0b10
  else none

/-- `SETFREQ <freq_hz>, <chan>, <phase>` from its operands. -/
def setFreqItem (f c : List Char) (p : Option Int) : Option PortItem :=
  match parseRat f, parseChan c, p with
  | some f, some c, some p =>
    some (.command { op := Op.setFreq.code, freqHz := f, chan := c, phase := p })
  | _, _, _ => none

/-- A line of one word: `SHUTDOWN`, `exit`, `quit`. -/
def parseBare (op : List Char) : Option PortItem :=
  if op = "SHUTDOWN".toList then some (.command { op := Op.shutdown.code })
  else if op = "exit".toList then some (.line .exit)
  else if op = "quit".toList then some (.line .quit)
  else none

/-- A line of a word and one operand: `INIT`, `SETMODE`, `sine`, `triangle`, `square`. -/
def parseUnary (op a : List Char) : Option PortItem :=
  if op = "INIT".toList then
    (parseRat a).map (fun clk => .command { op := Op.init.code, clockHz := clk })
  else if op = "SETMODE".toList then
    (parseMode a).map (fun m => .command { op := Op.setMode.code, mode := m })
  else if op = "sine".toList then (parseRat a).map (fun f => .line (.waveform .sine f))
  else if op = "triangle".toList then (parseRat a).map (fun f => .line (.waveform .triangle f))
  else if op = "square".toList then (parseRat a).map (fun f => .line (.waveform .square f))
  else none

/-- One line of a program (R87 to R89); an omitted phase is 0. -/
def assembleLine (line : String) : Option PortItem :=
  match tokenize [] line.toList with
  | [op] => parseBare op
  | [op, a] => parseUnary op a
  | [op, f, [','], c] => if op = "SETFREQ".toList then setFreqItem f c (some 0) else none
  | [op, f, [','], c, [','], p] =>
    if op = "SETFREQ".toList then setFreqItem f c (parseInt p) else none
  | _ => none

/-- A program: what the host presents, line by line (R61). -/
def assemble : List String → Option (List PortItem)
  | [] => some []
  | l :: ls =>
    match assembleLine l, assemble ls with
    | some i, some is => some (i :: is)
    | _, _ => none

/-- A hexadecimal digit. -/
def hexDigit (n : Nat) : Char := Char.ofNat (if n < 10 then 48 + n else 55 + n)

/-- A word as four-digit hexadecimal `0xHHHH` (R90). -/
def hexWord (w : Word) : String :=
  String.ofList
    ['0', 'x', hexDigit (w.extractLsb' 12 4).toNat, hexDigit (w.extractLsb' 8 4).toNat,
      hexDigit (w.extractLsb' 4 4).toNat, hexDigit (w.extractLsb' 0 4).toNat]

/-- The words of a trace, in the order handed to the transport (R90). -/
def traceText (t : List WriteEvent) : List String := t.map (fun e => hexWord e.word)

end Sys2Proof.Machine.Assembly
end

