-- ==== Sys2Proof/Tests/Slice0.lean ====
section
/-! SUPPORT. The model's own tests. Expected values are the spec's: the vectors of 95_test_vectors.md (their
ids stand beside them) and the formats of 30_encoding.md; then one witness for each statement that has
hypotheses. -/

namespace Sys2Proof.Tests

open Sys2Proof.Machine

/-! ## Helpers -/

/-- R6's values with a concrete chip select, so that traces can be compared. -/
def cfg : Config := { Config.standard with csId := ⟨7⟩ }

/-- The cause a failed write reports here. -/
def cause : TransportCause := ⟨0, .inl rfl⟩

/-- Construction, with a host's stream and the transport's answers. -/
def fresh (port : List PortItem) (answers : List Answer) : State :=
  { State.constructed cfg with port := port, answers := answers }

/-- The trace of a completed INIT. -/
def initTrace : List WriteEvent := [⟨⟨7⟩, 0x0100, .ok⟩, ⟨⟨7⟩, 0x2000, .ok⟩]

/-- After `INIT clk`, with a mode and an active channel (95 section 2.7's start). -/
def ready (clk : Rat) (m : WaveformMode) (ch : Chan) (port : List PortItem) (answers : List Answer) :
    State :=
  { fresh port answers with
    ctl := .ready, clock := some clk, dev := { DeviceState.defaults with mode := m, chan := ch },
    status := .ok, trace := initTrace, step := 2, seqLen := 2, seqWords := ⟨0x0100, 0x2000, 0, 0, 0⟩,
    pend := ⟨.ready, .defaults, some clk⟩, responses := [⟨.ok, 0, none⟩] }

/-- In the middle of `SETFREQ 5000, 0` at 25 MHz, mode Sine, at write `k + 1` (T-SF-E1 to T-SF-E5). -/
def inSetFreq (k : Nat) (answers : List Answer) : State :=
  { ready 25000000 .sine 0 [] answers with
    seq := .busy, step := BitVec.ofNat 3 k, seqLen := 5, seqOp := .setFreq,
    seqWords := ⟨0x2100, 0x51B7, 0x4003, 0xC000, 0x2000⟩,
    trace := initTrace ++ ([0x2100, 0x51B7, 0x4003, 0xC000].take k).map (fun w => ⟨⟨7⟩, w, .ok⟩),
    pend := ⟨.ready, { DeviceState.defaults with freq0 := 5000 }, some 25000000⟩ }

/-- A one-word sequence about to be answered. -/
def oneWord (op : Op) (w : Word) (answers : List Answer) : State :=
  { ready 25000000 .sine 0 [] answers with
    seq := .busy, step := 0, seqLen := 1, seqOp := op, seqWords := ⟨w, 0, 0, 0, 0⟩,
    pend := ⟨.reset, .defaults, none⟩ }

/-- The next state, where there is one. -/
def nextOf : Host.Outcome State Fault Refusal → Option State
  | .next t => some t
  | .fault _ => none
  | .refused _ => none

/-- A SETFREQ record. -/
def setFreqRecord (f : Rat) (c : Chan) (p : Int) : PortItem :=
  .command { op := 0b01, freqHz := f, chan := c, phase := p }

/-! ## Well-formedness: one ill-formed term for each check -/

theorem test_wf_refuses_wide_freq0 : (Instr.freq0 0x4000).wf = false := by decide
theorem test_wf_refuses_wide_freq1 : (Instr.freq1 0x4000).wf = false := by decide
theorem test_wf_refuses_wide_phase : (Instr.phase 4096).wf = false := by decide
theorem test_wf_refuses_negative_phase : (Instr.phase (-1)).wf = false := by decide
theorem test_wf_admits_full_fields :
    (Instr.freq0 0x3FFF).wf = true ∧ (Instr.freq1 0).wf = true ∧ (Instr.phase 4095).wf = true := by decide

/-! ## Decoding: words written out from 30_encoding.md R71 to R73, records from R81 to R83 -/

theorem test_decode_control_word :
    decodeWord cfg 0b0010100000000010 = .ok (.controlWord .triangle 1) := by decide
theorem test_decode_reset_qualified_word :
    decodeWord cfg 0b0010000100101000 = .ok (.resetQualifiedWord .square 0) := by decide
theorem test_decode_reset_word : decodeWord cfg 0b0000000100000000 = .ok .resetWord := by decide
theorem test_decode_freq0 : decodeWord cfg 0b0110100111110001 = .ok (.freq0 0x29F1) := by decide
theorem test_decode_freq1 : decodeWord cfg 0b1010000000000000 = .ok (.freq1 0x2000) := by decide
theorem test_decode_phase : decodeWord cfg 0b1100010000000000 = .ok (.phase 1024) := by decide
theorem test_decode_refuses_phase1_space :
    decodeWord cfg 0b1110000000000000 = .error (.notThePhaseSpace 0xE000) := by decide
theorem test_decode_refuses_phase_bit12 :
    decodeWord cfg 0b1101000000000000 = .error (.notThePhaseSpace 0xD000) := by decide
theorem test_decode_refuses_sleep_bits :
    decodeWord cfg 0b0010000011000000 = .error (.noControlWord 0x20C0) := by decide
theorem test_decode_init : decodeCommand { op := 0b00, clockHz := 5, freqHz := 1 } = .init 5 := by decide
theorem test_decode_set_freq :
    decodeCommand { op := 0b01, clockHz := 1, freqHz := 2, chan := 1, phase := -1 } =
      .setFreq 2 1 (-1) := by decide
theorem test_decode_set_mode : decodeCommand { op := 0b10, mode := 0b11 } = .setMode 0b11 := by decide
theorem test_decode_shutdown : decodeCommand { op := 0b11, freqHz := 3 } = .shutdown := by decide
theorem test_decode_lines :
    decodeLine (.waveform .sine 1) = .sine 1 ∧ decodeLine (.waveform .triangle 1) = .triangle 1 ∧
    decodeLine (.waveform .square 1) = .square 1 ∧ decodeLine .exit = .exit ∧
    decodeLine .quit = .quit := by decide

/-- R6's values and the alternatives P1 to P3 of 93 are all told apart but for P2's reset word, which P2
itself makes equal to `reset_qualified_word(Sine, 0)`. -/
theorem test_unambiguous_configurations :
    unambiguous Config.standard = true ∧
    unambiguous { Config.standard with modeSquare := 0x0020, round := .halfUp } = true ∧
    unambiguous { Config.standard with resetWord := 0x2100 } = false := by decide

/-! ## The Register Encoder (95 sections 2.1 to 2.5) -/

/-- T-TW-1, T-TW-4, T-TW-12, T-TW-16, T-TW-19. -/
theorem test_tuning_words :
    tuningWord .halfEven 1000 25000000 = .ok 0x00029F1 ∧
    tuningWord .halfEven 12500000 25000000 = .ok 0x8000000 ∧
    tuningWord .halfEven (536870911 / 2) 268435456 = .ok 0xFFFFFFF ∧
    tuningWord .halfUp (-1) 268435456 = .ok 0 ∧
    tuningWord .halfEven 5 0 = .error .clockOutsideDomain := by decide +kernel

/-- T-TW-7 to T-TW-9, and R116's negative rows. -/
theorem test_ties :
    roundHalfEven (1 / 2) = 0 ∧ roundHalfUp (1 / 2) = 1 ∧ roundHalfEven (3 / 2) = 2 ∧
    roundHalfUp (3 / 2) = 2 ∧ roundHalfEven (5 / 2) = 2 ∧ roundHalfUp (5 / 2) = 3 ∧
    roundHalfEven (-1 / 2) = 0 ∧ roundHalfUp (-1 / 2) = 0 ∧ roundHalfEven (-3 / 2) = -2 ∧
    roundHalfUp (-3 / 2) = -1 := by decide +kernel

/-- T-SP-3 to T-SP-5, and R104 on the first. -/
theorem test_split :
    splitTuningWord 53687 = (0x11B7, 0x0003) ∧ splitTuningWord 0x0A3D70A = (0x170A, 0x028F) ∧
    splitTuningWord 0x8000000 = (0x0000, 0x2000) ∧ reassemble 0x11B7 0x0003 = 53687 := by decide

/-- T-FR-1, T-FR-4, T-FR-6, T-FR-8. -/
theorem test_freq_register_words :
    checkedFreqRegisterWord 0x29F1 0 false = .ok 0x69F1 ∧
    checkedFreqRegisterWord 0x3FFF 0 false = .ok 0x7FFF ∧
    checkedFreqRegisterWord 0x2000 1 true = .ok 0xA000 ∧
    checkedFreqRegisterWord 0x4000 0 false = .error .operandOutsideType := by decide

/-- T-PH-4, T-PH-6, T-PH-7. -/
theorem test_phase_register_words :
    phaseRegisterWord 4095 = 0xCFFF ∧ phaseRegisterWord 4097 = 0xC001 ∧
    phaseRegisterWord (-1) = 0xCFFF := by decide

/-- T-CW-3, T-CW-5, T-CW-8, T-CW-12 to T-CW-15. -/
theorem test_control_words :
    controlWord cfg .square 0 = 0x2028 ∧ controlWord cfg .triangle 1 = 0x2802 ∧
    resetQualifiedWord cfg .triangle 0 = 0x2102 ∧ resetQualifiedWord cfg .square 1 = 0x2928 ∧
    resetWord cfg = 0x0100 ∧ controlWord { cfg with modeSquare := 0x0020 } .square 0 = 0x2020 ∧
    resetWord { cfg with resetWord := 0x2100 } = 0x2100 := by decide

/-- R53: `w[15:8]` before `w[7:0]`. -/
theorem test_wire_bytes : wireBytes 0x69F1 = [0x69, 0xF1] := by decide

/-! ## Commands (95 sections 2.6 to 2.9) -/

/-- T-IN-1, the acceptance. -/
theorem test_init_stages :
    (nextOf (exec (.init 25000000) (fresh [] []))).map
      (fun t => (t.seq, t.seqWords.w0, t.seqWords.w1, t.seqLen, t.ctl)) =
      some (.busy, 0x0100, 0x2000, 2, .uninit) := by decide
/-- T-IN-3. -/
theorem test_init_config_error :
    (nextOf (exec (.init (-5)) (fresh [] []))).map (fun t => (t.seq, t.ctl, t.status, t.errStep)) =
      some (.idle, .uninit, .configError, 0) := by decide
/-- T-SF-4. -/
theorem test_set_freq_stages :
    (nextOf (exec (.setFreq 12500000 1 1024) (ready 25000000 .sine 0 [] []))).map
      (fun t => (t.seqWords, t.seqLen, t.pend.dev)) =
      some (⟨0x2900, 0x8000, 0xA000, 0xC400, 0x2800⟩, 5, ⟨.sine, 1, 0, 12500000, 0, 1024⟩) := by
  decide +kernel
/-- T-SF-17. -/
theorem test_set_freq_top_tie_rejected :
    (nextOf (exec (.setFreq (536870911 / 2) 0 0) (ready 268435456 .sine 0 [] []))).map
      (fun t => (t.seq, t.status, t.trace.length)) = some (.idle, .outOfRange, 2) := by decide +kernel
/-- T-SM-5. -/
theorem test_set_mode_uses_active_channel :
    (nextOf (exec (.setMode 0b10) (ready 25000000 .sine 1 [] []))).map
      (fun t => (t.seqWords.w0, t.seqLen, t.pend.dev.mode, t.dev.mode)) =
      some (0x2828, 1, .square, .sine) := by decide
/-- T-SM-6. -/
theorem test_set_mode_reserved_code :
    (nextOf (exec (.setMode 0b11) (ready 25000000 .sine 0 [] []))).map (fun t => (t.seq, t.status)) =
      some (.idle, .outOfRange) := by decide
/-- T-SD-1, the acceptance. -/
theorem test_shutdown_stages :
    (nextOf (exec .shutdown (ready 25000000 .square 1 [] []))).map
      (fun t => (t.seq, t.seqWords.w0, t.seqLen, t.ctl)) = some (.busy, 0x0100, 1, .ready) := by decide
/-- T-SD-3. -/
theorem test_shutdown_before_init_logs :
    (nextOf (exec .shutdown (fresh [] []))).map (fun t => (t.ctl, t.status, t.trace, t.log)) =
      some (.uninit, .ok, [], [.protocolStateError]) := by decide

/-! ## Front-end lines (30_encoding.md R88, R89; 95 program P1) -/

theorem test_sine_line :
    (nextOf (exec (.sine 1000) (ready 25000000 .square 0 [] []))).map
      (fun t => (t.seqWords.w0, t.seqOp, t.port)) =
      some (0x2000, .setMode, [setFreqRecord 1000 0 0]) := by decide
theorem test_triangle_line :
    (nextOf (exec (.triangle 1000) (ready 25000000 .sine 0 [] []))).map
      (fun t => (t.seqWords.w0, t.pend.dev.mode)) = some (0x2002, .triangle) := by decide
theorem test_square_line :
    (nextOf (exec (.square 1000) (ready 25000000 .sine 0 [] []))).map
      (fun t => (t.seqWords.w0, t.pend.dev.mode)) = some (0x2028, .square) := by decide
theorem test_exit_line :
    (nextOf (exec .exit (ready 25000000 .sine 0 [] []))).map (fun t => (t.seqOp, t.seqWords.w0)) =
      some (.shutdown, 0x0100) := by decide
theorem test_quit_line :
    (nextOf (exec .quit (fresh [] []))).map (fun t => (t.status, t.log)) =
      some (.ok, [.protocolStateError]) := by decide

/-! ## Register words: the write step -/

/-- T-SF-E1 to T-SF-E5 hand over the words in order; here writes 1 to 4 answered `OK`. -/
theorem test_reset_qualified_word_write :
    (nextOf (step (inSetFreq 0 [.ok]))).map (fun t => (t.step, t.trace.getLast?)) =
      some (1, some ⟨⟨7⟩, 0x2100, .ok⟩) := by decide
theorem test_freq0_write :
    (nextOf (step (inSetFreq 1 [.ok]))).map (fun t => (t.step, t.trace.getLast?)) =
      some (2, some ⟨⟨7⟩, 0x51B7, .ok⟩) := by decide
/-- T-SF-E3 (the source's S8): the third write fails. -/
theorem test_freq0_write_fails :
    (nextOf (step (inSetFreq 2 [.err cause]))).map
      (fun t => (t.seq, t.status, t.errStep, t.errCause, t.dev.freq0)) =
      some (.idle, .transportError, 3, some cause, 0) := by decide
theorem test_phase_write :
    (nextOf (step (inSetFreq 3 [.ok]))).map (fun t => (t.step, t.trace.getLast?)) =
      some (4, some ⟨⟨7⟩, 0xC000, .ok⟩) := by decide
/-- The last write of `SETFREQ 5000, 0` commits. -/
theorem test_control_word_write_commits :
    (nextOf (step (inSetFreq 4 [.ok]))).map
      (fun t => (t.seq, t.status, t.dev, t.trace.getLast?)) =
      some (.idle, .ok, ⟨.sine, 0, 5000, 0, 0, 0⟩, some ⟨⟨7⟩, 0x2000, .ok⟩) := by decide
/-- T-SF-E5. -/
theorem test_control_word_write_fails :
    (nextOf (step (inSetFreq 4 [.err cause]))).map (fun t => (t.ctl, t.errStep, t.dev)) =
      some (.ready, 5, .defaults) := by decide
/-- T-SD-2. -/
theorem test_reset_word_write_ends_shutdown :
    (nextOf (step (oneWord .shutdown 0x0100 [.err cause]))).map
      (fun t => (t.ctl, t.status, t.clock, t.log)) =
      some (.reset, .ok, none, [.transportError 1 cause]) := by decide
theorem test_freq1_write :
    (nextOf (exec (.freq1 0x2000) (oneWord .setFreq 0xA000 [.err cause]))).map
      (fun t => (t.errStep, t.trace.getLast?)) = some (1, some ⟨⟨7⟩, 0xA000, .err cause⟩) := by decide
/-- T-FR-8 as an instruction. -/
theorem test_wide_payload_refused (s : State) : exec (.freq1 0x4000) s = .refused .operandOutsideType := rfl

/-! ## The step around the instructions -/

/-- R130: `INIT` presented while a sequence runs is not taken; the waiting word is written. -/
theorem test_step_busy_holds_command :
    (nextOf (step { inSetFreq 1 [.ok] with port := [.command { op := 0b00, clockHz := 1 }] })).map
      (fun t => (t.step, t.port.length)) = some (2, 1) := by decide
/-- R210, in the middle of a sequence. -/
theorem test_reset_input :
    (nextOf (step { inSetFreq 2 [.ok] with resetInput := true })).map
      (fun t => (t.ctl, t.seq, t.status, t.clock, t.trace.length)) =
      some (.uninit, .idle, .none, none, 4) := by decide
/-- A register word placed for the next step is written by it, from reset. -/
theorem test_placed_word_runs :
    (nextOf (step (State.reset.withFetchWord 16 0xC400))).map
      (fun t => t.trace.map (fun e => (e.word, e.answer))) = some [(0xC400, .ok)] := by decide
/-- A command placed for the next step is accepted by it, from reset. -/
theorem test_placed_command_runs :
    (nextOf (step (State.reset.withFetchWord 8 0b01))).map (fun t => (t.status, t.port)) =
      some (.protocolStateError, []) := by decide

/-! ## Assembly syntax and trace text (30_encoding.md R87 to R90) -/

theorem test_assemble_lines :
    Assembly.assemble ["INIT 25000000", "SETFREQ 5/2, 1", "SETFREQ 12.5, 0, 4095", "SETMODE SQUARE",
        "SHUTDOWN", "sine 1000", "quit"] =
      some [.command { op := 0b00, clockHz := 25000000 }, setFreqRecord (5 / 2) 1 0,
        setFreqRecord (25 / 2) 0 4095, .command { op := 0b10, mode := 0b10 }, .command { op := 0b11 },
        .line (.waveform .sine 1000), .line .quit] := by decide +kernel
theorem test_trace_text :
    Assembly.traceText initTrace = ["0x0100", "0x2000"] ∧ Assembly.hexWord 0xBFA9 = "0xBFA9" := by decide

/-! ## Witnesses: a concrete state and operands that meet the hypotheses of each statement, clause by clause -/

theorem witness_RoundingPrimitives :
    frac (1 / 4) < 1 / 2 ∧ 1 / 2 < frac (3 / 4) ∧ frac (5 / 2) = 1 / 2 := by decide +kernel

theorem witness_TuningWordIsClampedRoundedQuotient :
    (0 : Rat) ≤ 0 ∧ (0 : Rat) < 1 ∧ (-1 : Rat) < 0 := by decide +kernel

theorem witness_TuningWordMonotone : (0 : Rat) < 25000000 ∧ (-1 : Rat) ≤ 1000 := by decide +kernel

theorem witness_NyquistTuningWord : (0 : Rat) < 25000000 := by decide

theorem witness_QuantizationErrorBound :
    (0 : Rat) < 25000000 ∧ (0 : Rat) < 1000 ∧ twRaw .halfEven 1000 25000000 = .ok 10737 ∧
    (10737 : Int) ≤ 2 ^ 28 - 1 := by decide +kernel

theorem witness_TiesAtBothEndsOfTheRange :
    (0 : Rat) < 268435456 ∧ ((0 : Rat) < 1 / 4 ∧ (1 / 4 : Rat) * 2 ^ 28 / 268435456 < 1 / 2) ∧
    (1 / 2 : Rat) * 2 ^ 28 / 268435456 = 1 / 2 ∧
    (536870911 / 2 : Rat) * 2 ^ 28 / 268435456 = 2 ^ 28 - 1 / 2 := by decide +kernel

theorem witness_FreqRegisterWordFields :
    (0x3FFF < 2 ^ 14 ∧ 1 < 2) ∧ (2 ^ 14 ≤ 0x4000 ∨ 2 ≤ 0) ∧ (2 ^ 14 ≤ 0 ∨ 2 ≤ 2) := by decide

theorem witness_PhaseRegisterWordFields : (0 : Int) ≤ 4095 ∧ (4095 : Int) ≤ 4095 := by decide

theorem witness_CtrlWordBits : cfg.TableValues := by decide

theorem witness_EmittedWordSet : Config.standard.TableValues := by decide

theorem witness_DecodeEncodeRoundTrip :
    unambiguous cfg = true ∧ (Instr.freq0 0x3FFF).wf = true ∧ (Instr.phase 4095).wf = true ∧
    (Instr.setMode 0b11).wf = true := by decide

theorem witness_EncodeDecodedWord : decodeWord cfg 0x2028 = .ok (.controlWord .square 0) := by decide

theorem witness_CommandOpCodes :
    ({ op := 0b00 } : CommandRecord).op = 0b00 ∧ ({ op := 0b01 } : CommandRecord).op = 0b01 ∧
    ({ op := 0b10 } : CommandRecord).op = 0b10 ∧ ({ op := 0b11 } : CommandRecord).op = 0b11 := by decide

theorem witness_StepRunsTheDecodedInstruction :
    (fresh [setFreqRecord 1 0 0] []).resetInput = false ∧ (fresh [setFreqRecord 1 0 0] []).seq = .idle ∧
    (fresh [setFreqRecord 1 0 0] []).port = [setFreqRecord 1 0 0] ∧
    (inSetFreq 4 [.ok]).resetInput = false ∧ (inSetFreq 4 [.ok]).seq = .busy ∧
    (inSetFreq 4 [.ok]).seqWords.get (inSetFreq 4 [.ok]).step.toNat = some 0x2000 ∧
    decodeWord (inSetFreq 4 [.ok]).cfg 0x2000 = .ok (.controlWord .sine 0) := by decide

/-- The clause about a scheduled word that is no word of R74: a PHASE1-space word in a running sequence. -/
theorem witness_StepRunsTheDecodedInstruction_undecodable :
    (oneWord .setMode 0xE000 [.ok]).resetInput = false ∧ (oneWord .setMode 0xE000 [.ok]).seq = .busy ∧
    (oneWord .setMode 0xE000 [.ok]).seqWords.get (oneWord .setMode 0xE000 [.ok]).step.toNat =
      some 0xE000 ∧
    decodeWord (oneWord .setMode 0xE000 [.ok]).cfg 0xE000 = .error (.notThePhaseSpace 0xE000) ∧
    (oneWord .setMode 0xE000 [.ok]).answers = [.ok] ∧
    (nextOf (step (oneWord .setMode 0xE000 [.ok]))).map (fun t => t.trace.getLast?) =
      some (some ⟨⟨7⟩, 0xE000, .ok⟩) := by decide

theorem witness_StepWaits :
    (inSetFreq 4 []).resetInput = false ∧ (inSetFreq 4 []).seq = .busy ∧
    (inSetFreq 4 []).step.toNat < 5 ∧ (inSetFreq 4 []).answers = [] := by decide

theorem witness_IdleWaits :
    (fresh [] []).resetInput = false ∧ (fresh [] []).seq = .idle ∧ (fresh [] []).port = [] := by decide

theorem witness_ResetInputConstructs :
    { inSetFreq 2 [.ok] with resetInput := true }.resetInput = true := rfl

theorem witness_InitStages :
    (fresh [] []).seq = .idle ∧ (fresh [] []).ctl ≠ .ready ∧ (0 : Rat) < 25000000 := by decide

theorem witness_ConfigErrorIsInitsAlone :
    (fresh [] []).seq = .idle ∧ (fresh [] []).ctl ≠ .ready ∧ (0 : Rat) ≤ 0 ∧
    (fresh [] []).status ≠ .configError ∧
    (nextOf (exec (.init 0) (fresh [] []))).map (fun t => t.status) = some .configError := by decide

theorem witness_SetFreqStages :
    (ready 268435456 .sine 0 [] []).seq = .idle ∧ (ready 268435456 .sine 0 [] []).ctl = .ready ∧
    (ready 268435456 .sine 0 [] []).clock = some 268435456 ∧ (0 : Rat) < 268435455 ∧
    twRaw (ready 268435456 .sine 0 [] []).cfg.round 268435455 268435456 = .ok 268435455 ∧
    (268435455 : Int) ≤ 2 ^ 28 - 1 ∧ (0 : Int) ≤ 4095 ∧ (4095 : Int) ≤ 4095 := by decide +kernel

theorem witness_SetFreqOutOfRange :
    (ready 268435456 .sine 0 [] []).seq = .idle ∧ (ready 268435456 .sine 0 [] []).ctl = .ready ∧
    (ready 268435456 .sine 0 [] []).clock = some 268435456 ∧ (0 : Rat) < 268435456 ∧
    (0 : Rat) ≤ 0 ∧ twRaw .halfEven 268435456 268435456 = .ok 268435456 ∧
    (2 : Int) ^ 28 - 1 < 268435456 ∧ (-1 : Int) < 0 ∧ (4095 : Int) < 4096 := by decide +kernel

theorem witness_SetModeStages :
    (ready 25000000 .sine 1 [] []).seq = .idle ∧ (ready 25000000 .sine 1 [] []).ctl = .ready ∧
    ((0b10 : BitVec 2) = 0b10 ∧ WaveformMode.square = .square) := by decide

theorem witness_SetModeReservedCode :
    (ready 25000000 .sine 1 [] []).seq = .idle ∧ (ready 25000000 .sine 1 [] []).ctl = .ready := by decide

theorem witness_ShutdownStagesOrLogs :
    (ready 25000000 .sine 1 [] []).seq = .idle ∧ (ready 25000000 .sine 1 [] []).ctl = .ready ∧
    (fresh [] []).seq = .idle ∧ (fresh [] []).ctl ≠ .ready ∧
    (Instr.quit = .shutdown ∨ Instr.quit = .exit ∨ Instr.quit = .quit) := by decide

theorem witness_CommandLegality :
    (ready 25000000 .sine 1 [] []).seq = .idle ∧ (ready 25000000 .sine 1 [] []).ctl = .ready ∧
    (ready 25000000 .sine 1 [] []).status ≠ .protocolStateError ∧
    (nextOf (exec (.setMode 0b11) (ready 25000000 .sine 1 [] []))).isSome = true ∧
    (fresh [] []).seq = .idle ∧ (fresh [] []).ctl ≠ .ready ∧
    (fresh [] []).status ≠ .protocolStateError ∧
    (nextOf (exec (.init 0) (fresh [] []))).isSome = true := by decide

theorem witness_WaveformLinesExpand :
    (ready 25000000 .sine 1 [] []).seq = .idle ∧ (ready 25000000 .sine 1 [] []).ctl = .ready ∧
    (fresh [] []).seq = .idle ∧ (fresh [] []).ctl ≠ .ready ∧ LineNames 1000 (.square 1000) .square :=
  ⟨rfl, rfl, rfl, by decide, .inr (.inr ⟨rfl, rfl⟩)⟩

theorem witness_CommandsHeldWhileBusy :
    IsPortInstr (.init 1) ∧ IsPortInstr (.sine 1) ∧ (inSetFreq 0 [.ok]).seq = .busy :=
  ⟨.inl ⟨1, rfl⟩, .inr (.inr (.inr (.inr (.inl ⟨1, .sine, .inl ⟨rfl, rfl⟩⟩)))), rfl⟩

/-- The front-end line is a form of `RejectionChangesNothingElse` too. -/
theorem witness_RejectionChangesNothingElse_line :
    IsPortInstr (.triangle 5) ∧ (fresh [.line (.waveform .triangle 5)] []).seq = .idle ∧
    (nextOf (exec (.triangle 5) (fresh [.line (.waveform .triangle 5)] []))).map
      (fun t => (t.seq, t.status)) = some (.idle, .protocolStateError) :=
  ⟨.inr (.inr (.inr (.inr (.inl ⟨5, .triangle, .inr (.inl ⟨rfl, rfl⟩)⟩)))), rfl, by decide⟩

theorem witness_RejectionChangesNothingElse :
    IsPortInstr (.init 0) ∧ (fresh [] []).seq = .idle ∧
    (nextOf (exec (.init 0) (fresh [] []))).map (fun t => (t.seq, t.status)) =
      some (.idle, .configError) :=
  ⟨.inl ⟨0, rfl⟩, rfl, by decide⟩

theorem witness_FirstErrorWins :
    (fresh [] []).seq = .idle ∧ (fresh [] []).ctl ≠ .ready ∧
    (ready 25000000 .sine 0 [] []).seq = .idle ∧ (ready 25000000 .sine 0 [] []).ctl = .ready ∧
    (0 : Rat) ≤ 0 ∧ (0 : Rat) < 1 ∧
    ∀ clk, (ready (-1) .sine 0 [] []).clock = some clk → clk ≤ 0 := by
  refine ⟨rfl, by decide, rfl, rfl, by decide, by decide, ?_⟩
  intro clk h
  obtain rfl : (-1 : Rat) = clk := Option.some.inj h
  decide

theorem witness_WordWriteAdvances :
    WritesWord (inSetFreq 2 [.ok]).cfg (.freq0 3) 0x4003 ∧ (inSetFreq 2 [.ok]).seq = .busy ∧
    (inSetFreq 2 [.ok]).seqWords.get (inSetFreq 2 [.ok]).step.toNat = some 0x4003 ∧
    (inSetFreq 2 [.ok]).answers = [.ok] ∧ (inSetFreq 2 [.ok]).step + 1 ≠ (inSetFreq 2 [.ok]).seqLen :=
  ⟨.inr (.inr (.inr (.inl ⟨3, by decide, rfl, rfl⟩))), rfl, rfl, rfl, by decide⟩

theorem witness_CommitOnLastOk :
    WritesWord (inSetFreq 4 [.ok]).cfg (.controlWord .sine 0) 0x2000 ∧
    (inSetFreq 4 [.ok]).seq = .busy ∧
    (inSetFreq 4 [.ok]).seqWords.get (inSetFreq 4 [.ok]).step.toNat = some 0x2000 ∧
    (inSetFreq 4 [.ok]).answers = [.ok] ∧ (inSetFreq 4 [.ok]).step + 1 = (inSetFreq 4 [.ok]).seqLen ∧
    (inSetFreq 4 [.ok]).seqOp ≠ .shutdown ∧
    (nextOf (exec (.controlWord .sine 0) (inSetFreq 4 [.ok]))).map (fun t => t.dev.freq0) = some 5000 ∧
    (inSetFreq 4 [.ok]).dev.freq0 = 0 :=
  ⟨.inl ⟨.sine, 0, rfl, by decide⟩, rfl, rfl, rfl, by decide, by decide, by decide, rfl⟩

theorem witness_AbortOnTransportError :
    WritesWord (inSetFreq 3 [.err cause]).cfg (.phase 0) 0xC000 ∧
    (inSetFreq 3 [.err cause]).seq = .busy ∧
    (inSetFreq 3 [.err cause]).seqWords.get (inSetFreq 3 [.err cause]).step.toNat = some 0xC000 ∧
    (inSetFreq 3 [.err cause]).answers = [.err cause] ∧ (inSetFreq 3 [.err cause]).seqOp ≠ .shutdown :=
  ⟨.inr (.inr (.inr (.inr (.inr ⟨0, rfl, by decide⟩)))), rfl, rfl, rfl, by decide⟩

theorem witness_ShutdownEndsWhateverTheAnswer :
    WritesWord (oneWord .shutdown 0x0100 [.err cause]).cfg .resetWord 0x0100 ∧
    (oneWord .shutdown 0x0100 [.err cause]).seq = .busy ∧
    (oneWord .shutdown 0x0100 [.err cause]).step = 0 ∧
    (oneWord .shutdown 0x0100 [.err cause]).seqLen = 1 ∧
    (oneWord .shutdown 0x0100 [.err cause]).seqWords.w0 = 0x0100 ∧
    (oneWord .shutdown 0x0100 [.err cause]).seqOp = .shutdown ∧
    (oneWord .shutdown 0x0100 [.err cause]).answers = [.err cause] ∧
    (oneWord .shutdown 0x0100 [.ok]).answers = [.ok] :=
  ⟨.inr (.inr (.inl ⟨rfl, rfl⟩)), rfl, rfl, rfl, rfl, rfl, rfl, rfl⟩

theorem witness_WordsHeldOrRefused :
    WritesWord (inSetFreq 2 []).cfg (.freq0 3) 0x4003 ∧ (inSetFreq 2 []).answers = [] ∧
    (fresh [] []).seq = .idle ∧
    (inSetFreq 1 [.ok]).seqWords.get (inSetFreq 1 [.ok]).step.toNat ≠ some 0x4003 ∧ 2 ^ 14 ≤ 0x4000 :=
  ⟨.inr (.inr (.inr (.inl ⟨3, by decide, rfl, rfl⟩))), rfl, rfl, by decide, by decide⟩

theorem witness_InitRuns :
    (fresh [.command { op := 0b00, clockHz := 1 }] [.ok, .ok]).resetInput = false ∧
    (fresh [.command { op := 0b00, clockHz := 1 }] [.ok, .ok]).seq = .idle ∧
    (fresh [.command { op := 0b00, clockHz := 1 }] [.ok, .ok]).ctl ≠ .ready ∧
    ({ op := 0b00, clockHz := 1 } : CommandRecord).op = 0b00 ∧ (0 : Rat) < 1 ∧
    (fresh [] [.ok, .ok]).answers = [.ok, .ok] ∧ (fresh [] [.err cause]).answers = [.err cause] ∧
    (fresh [] [.ok, .err cause]).answers = [.ok, .err cause] := by decide

theorem witness_SetFreqWritesFiveWordsAndCommits :
    (ready 268435456 .square 0 [setFreqRecord 268435455 1 4095] [.ok, .ok, .ok, .ok, .ok]).seq = .idle ∧
    (ready 268435456 .square 0 [setFreqRecord 268435455 1 4095] [.ok, .ok, .ok, .ok, .ok]).resetInput =
      false ∧
    (ready 268435456 .square 0 [setFreqRecord 268435455 1 4095] [.ok, .ok, .ok, .ok, .ok]).ctl = .ready ∧
    (ready 268435456 .square 0 [setFreqRecord 268435455 1 4095] [.ok, .ok, .ok, .ok, .ok]).clock =
      some 268435456 ∧
    (0 : Rat) < 268435455 ∧
    twRaw .halfEven 268435455 268435456 = .ok ((0xFFFFFFF : TuningWord).toNat : Int) ∧
    (0 : Int) ≤ 4095 ∧ (4095 : Int) ≤ 4095 := by decide +kernel

theorem witness_SetFreqAbortsAtEachWrite :
    (ready 268435456 .square 0 [setFreqRecord 1 1 0] [.ok, .ok, .ok, .ok, .err cause]).answers =
      List.replicate 4 .ok ++ [.err cause] ∧
    (ready 268435456 .square 0 [setFreqRecord 1 1 0] [.err cause]).answers =
      List.replicate 0 .ok ++ [.err cause] ∧
    (ready 268435456 .square 0 [setFreqRecord 1 1 0] [.err cause]).seq = .idle ∧
    (ready 268435456 .square 0 [setFreqRecord 1 1 0] [.err cause]).resetInput = false ∧
    (ready 268435456 .square 0 [setFreqRecord 1 1 0] [.err cause]).ctl = .ready ∧
    twRaw .halfEven 1 268435456 = .ok ((1 : TuningWord).toNat : Int) ∧ 4 < 5 ∧ 0 < 5 := by
  decide +kernel

theorem witness_SetModeRuns :
    (ready 25000000 .sine 0 [.command { op := 0b10, mode := 0b01 }] [.ok]).resetInput = false ∧
    (ready 25000000 .sine 0 [.command { op := 0b10, mode := 0b01 }] [.ok]).seq = .idle ∧
    (ready 25000000 .sine 0 [.command { op := 0b10, mode := 0b01 }] [.ok]).ctl = .ready ∧
    modeOfCode 0b01 = some .triangle ∧
    (ready 25000000 .sine 0 [.command { op := 0b10, mode := 0b01 }] [.err cause]).answers =
      [.err cause] := by decide

theorem witness_ShutdownRuns :
    (ready 25000000 .sine 0 [.command { op := 0b11 }] [.ok]).resetInput = false ∧
    (ready 25000000 .sine 0 [.command { op := 0b11 }] [.ok]).seq = .idle ∧
    (ready 25000000 .sine 0 [.command { op := 0b11 }] [.ok]).ctl = .ready ∧
    (ready 25000000 .sine 0 [.command { op := 0b11 }] [.ok]).answers = [.ok] ∧
    (ready 25000000 .sine 0 [.command { op := 0b11 }] [.err cause]).answers = [.err cause] := by decide

theorem witness_WaveformLineRuns :
    (ready 25000000 .sine 1 [.line (.waveform .square 1000)] (List.replicate 6 .ok)).resetInput = false ∧
    (ready 25000000 .sine 1 [.line (.waveform .square 1000)] (List.replicate 6 .ok)).seq = .idle ∧
    (ready 25000000 .sine 1 [.line (.waveform .square 1000)] (List.replicate 6 .ok)).ctl = .ready ∧
    (ready 25000000 .sine 1 [.line (.waveform .square 1000)] (List.replicate 6 .ok)).clock =
      some 25000000 ∧
    (0 : Rat) < 1000 ∧
    twRaw .halfEven 1000 25000000 = .ok ((10737 : TuningWord).toNat : Int) ∧
    List.replicate 6 Answer.ok = [.ok, .ok, .ok, .ok, .ok, .ok] := by decide +kernel

/-! ### The invariant holds of a state in the middle of a sequence -/

/-- `SETFREQ 5000, 0` is staged in the committed state it was accepted in. -/
theorem inSetFreq_staged :
    setFreqRule (inSetFreq 2 [.ok]) 5000 0 0 =
      .ok (.run [0x2100, 0x51B7, 0x4003, 0xC000, 0x2000] (inSetFreq 2 [.ok]).pend) := by decide +kernel

theorem inSetFreq_inv : Inv (inSetFreq 2 [.ok]) where
  clock := ⟨fun _ => ⟨25000000, rfl, by decide⟩, fun h => absurd rfl h⟩
  sequence := fun _ => ⟨by decide, by decide, ⟨initTrace, rfl⟩⟩
  staged := fun _ => ⟨_, ⟨5000, 0, 0, inSetFreq_staged⟩, rfl, rfl⟩
  control := fun h => by cases h
  response := ⟨by decide, by decide, by decide⟩
  freq := ⟨by decide, by decide⟩

theorem witness_StepKeepsInv :
    Inv (inSetFreq 2 [.ok]) ∧ ∃ t, step (inSetFreq 2 [.ok]) = .next t ∧ t.step = 3 :=
  ⟨inSetFreq_inv, _, rfl, by decide⟩

theorem witness_StepFromInvGoesOn : Inv (inSetFreq 2 [.ok]) := inSetFreq_inv

theorem witness_ConfigurationIsFixed :
    (nextOf (step (inSetFreq 2 [.ok]))).isSome = true := by decide

theorem witness_TraceGrowsByScheduledWord :
    (nextOf (step (inSetFreq 2 [.ok]))).map (fun t => t.trace.length) = some 5 ∧
    (inSetFreq 2 [.ok]).trace.length = 4 ∧
    (inSetFreq 2 []).resetInput = false ∧ (inSetFreq 2 []).seq = .busy ∧
    nextOf (step (inSetFreq 2 [])) = some (inSetFreq 2 []) := by decide

theorem witness_StagedValuesInvisible :
    (inSetFreq 2 [.ok]).resetInput = false ∧
    (nextOf (step (inSetFreq 2 [.ok]))).map (fun t => t.seq) = some .busy ∧
    (nextOf (step (fresh [.command { op := 0b00, clockHz := 1 }] []))).map (fun t => t.seq) =
      some .busy := by decide

theorem witness_ResponsesWrittenAtCommandEnd :
    (inSetFreq 2 [.err cause]).resetInput = false ∧
    (nextOf (step (inSetFreq 2 [.err cause]))).map (fun t => t.responses.length) = some 2 ∧
    (inSetFreq 2 [.err cause]).responses.length = 1 := by decide

theorem witness_OnlyShutdownLogs :
    (nextOf (step (fresh [.line .exit] []))).map (fun t => t.log) = some [.protocolStateError] ∧
    (nextOf (step (oneWord .shutdown 0x0100 [.err cause]))).map (fun t => t.log) =
      some [.transportError 1 cause] := by decide

/-- The last write of `SETFREQ 268435455, 1` at a clock of `2^28` (T-SF-16), about to be answered. -/
def commitToChannelOne : State :=
  { ready 268435456 .sine 0 [] [.ok] with
    seq := .busy, step := 4, seqLen := 5, seqOp := .setFreq,
    seqWords := ⟨0x2900, 0xBFFF, 0xBFFF, 0xC000, 0x2800⟩,
    trace := initTrace ++ ([0x2900, 0xBFFF, 0xBFFF, 0xC000]).map (fun w => ⟨⟨7⟩, w, .ok⟩),
    pend := ⟨.ready, ⟨.sine, 1, 0, 268435455, 0, 0⟩, some 268435456⟩ }

theorem commitToChannelOne_staged :
    setFreqRule commitToChannelOne 268435455 1 0 =
      .ok (.run [0x2900, 0xBFFF, 0xBFFF, 0xC000, 0x2800] commitToChannelOne.pend) := by decide +kernel

theorem commitToChannelOne_inv : Inv commitToChannelOne where
  clock := ⟨fun _ => ⟨268435456, rfl, by decide⟩, fun h => absurd rfl h⟩
  sequence := fun _ => ⟨by decide, by decide, ⟨initTrace, rfl⟩⟩
  staged := fun _ => ⟨_, ⟨268435455, 1, 0, commitToChannelOne_staged⟩, rfl, rfl⟩
  control := fun h => by cases h
  response := ⟨by decide, by decide, by decide⟩
  freq := ⟨by decide, by decide⟩

theorem witness_OnlySetFreqSelectsChannelOne :
    Inv commitToChannelOne ∧ ∃ t, step commitToChannelOne = .next t ∧
      commitToChannelOne.dev.chan = 0 ∧ t.dev.chan = 1 :=
  ⟨commitToChannelOne_inv, _, rfl, rfl, by decide⟩

/-- SHUTDOWN's write, about to fail. -/
def endOfShutdown : State :=
  { oneWord .shutdown 0x0100 [.err cause] with
    pend := ⟨.reset, .defaults, none⟩, seqWords := ⟨0x0100, 0, 0, 0, 0⟩ }

theorem endOfShutdown_inv : Inv endOfShutdown where
  clock := ⟨fun _ => ⟨25000000, rfl, by decide⟩, fun h => absurd rfl h⟩
  sequence := fun _ => ⟨by decide, by decide, ⟨initTrace, rfl⟩⟩
  staged := fun _ => ⟨[0x0100], rfl, rfl, rfl⟩
  control := fun h => by cases h
  response := ⟨by decide, by decide, by decide⟩
  freq := ⟨by decide, by decide⟩

/-- The clause of `ShutdownEndsWhateverTheAnswer` about states of the invariant. -/
theorem witness_ShutdownEndsWhateverTheAnswer_inv :
    Inv endOfShutdown ∧ WritesWord endOfShutdown.cfg .resetWord 0x0100 ∧ endOfShutdown.seq = .busy ∧
    endOfShutdown.step = 0 ∧ endOfShutdown.seqLen = 1 ∧ endOfShutdown.seqWords.w0 = 0x0100 ∧
    endOfShutdown.seqOp = .shutdown ∧ endOfShutdown.answers = [.err cause] :=
  ⟨endOfShutdown_inv, .inr (.inr (.inl ⟨rfl, rfl⟩)), rfl, rfl, rfl, rfl, rfl, rfl⟩

theorem witness_ControllerTransitions :
    Inv endOfShutdown ∧ endOfShutdown.resetInput = false ∧
    ∃ t, step endOfShutdown = .next t ∧ t.ctl ≠ endOfShutdown.ctl :=
  ⟨endOfShutdown_inv, rfl, _, rfl, by decide⟩

end Sys2Proof.Tests
end

section
/-! The rounding primitives of R10: one equation per case of `frac`, then the obligation they add up to. -/

namespace Sys2Proof.Machine

theorem roundHalfEven_of_frac_lt_half {x : Rat} (h : frac x < 1 / 2) :
    roundHalfEven x = x.floor :=
  if_pos h

theorem roundHalfEven_of_half_lt_frac {x : Rat} (h : 1 / 2 < frac x) :
    roundHalfEven x = x.floor + 1 := by
  rw [roundHalfEven, if_neg h.not_gt, if_pos h]

/-- At a tie the value is the even one of the two neighbouring integers; the other two cases of
`roundHalfEven_cases` put `frac x` strictly to one side of one half. -/
theorem roundHalfEven_of_frac_eq_half {x : Rat} (h : frac x = 1 / 2) :
    Even (roundHalfEven x) ∧ (roundHalfEven x = x.floor ∨ roundHalfEven x = x.floor + 1) := by
  obtain ⟨below, -⟩ | ⟨above, -⟩ | ⟨-, even, neighbour⟩ := roundHalfEven_cases x
  · exact absurd h below.ne
  · exact absurd h above.ne'
  · exact ⟨Int.even_iff.mpr even, neighbour⟩

end Sys2Proof.Machine

namespace Sys2Proof

/-- Settles O1: the three cases of `frac` for half-to-even; `floor` by its universal property; the other
clauses are the definitions of `frac`, `roundHalfUp`, `roundP` and `clamp`. -/
theorem roundingPrimitives : Obligations.RoundingPrimitives :=
  ⟨fun _ => ⟨fun _ => Rat.le_floor_iff.symm, rfl, Machine.roundHalfEven_of_frac_lt_half,
    Machine.roundHalfEven_of_half_lt_frac, Machine.roundHalfEven_of_frac_eq_half, rfl, rfl, rfl⟩,
    fun _ _ _ => rfl⟩

end Sys2Proof
end

section
/-! What the host reads (R32): the operations that stage a command or hand over a word that is not the
last leave it, and no other operation ends with `seq = BUSY`. -/

namespace Sys2Proof.Machine

@[simp] theorem withPort_hostView (s : State) (items : List PortItem) :
    (s.withPort items).hostView = s.hostView := rfl

@[simp] theorem startSequence_hostView (s : State) (op : Op) (ws : List Word) (p : Pend) :
    (s.startSequence op ws p).hostView = s.hostView := rfl

@[simp] theorem recordWrite_hostView (s : State) (w : Word) (a : Answer) (rest : List Answer) :
    (s.recordWrite w a rest).hostView = s.hostView := rfl

@[simp] theorem advance_hostView (s : State) : s.advance.hostView = s.hostView := rfl

/-- A command that is accepted and still runs was staged (R131). -/
theorem takeOutcome_hostView_of_busy {s : State} {op : Op} {o : AcceptOutcome}
    (h : (s.takeOutcome op o).seq = .busy) : (s.takeOutcome op o).hostView = s.hostView := by
  cases o with
  | reject e => simp at h
  | doneNoWrite ev => simp at h
  | run ws p => simp

/-- Every end of a command sets `seq = IDLE`, so an answer that leaves the command running only moves
the step index (R139). -/
theorem takeAnswer_eq_advance_of_busy {s : State} {a : Answer} (h : (s.takeAnswer a).seq = .busy) :
    s.takeAnswer a = s.advance := by
  obtain ⟨-, -, running⟩ | ⟨-, -, -, ended⟩ | ⟨-, -, -, ended⟩ | ⟨_, -, -, ended⟩ | ⟨_, -, -, ended⟩ :=
    takeAnswer_cases s a
  · exact running
  all_goals simp [ended] at h

end Sys2Proof.Machine

namespace Sys2Proof

open Machine

/-- Settles O50, by what a step can do (`step_next`): hold the state, accept a command, or take an
answer. -/
theorem stagedValuesInvisible : Obligations.StagedValuesInvisible := by
  intro s t noReset hstep busy
  obtain ⟨reset, -⟩ | ⟨-, rfl⟩ | ⟨-, -, op, o, rest, -, rfl⟩ | ⟨-, w, a, rest, -, -, rfl⟩ :=
    step_next hstep
  · simp [noReset] at reset
  · rfl
  · rw [takeOutcome_hostView_of_busy busy, withPort_hostView]
  · rw [takeAnswer_eq_advance_of_busy busy, advance_hostView, recordWrite_hostView]

end Sys2Proof
end

section
/-! The construction values (R39): DeviceState's defaults read by channel, and the obligation. -/

namespace Sys2Proof.Machine

@[simp] theorem DeviceState.defaults_freq (c : Chan) : DeviceState.defaults.freq c = 0 := ite_self 0

@[simp] theorem DeviceState.defaults_phase (c : Chan) : DeviceState.defaults.phase c = 0 := ite_self 0

end Sys2Proof.Machine

namespace Sys2Proof

/-- Settles O20: each register is the value `State.constructed` gives it; a frequency or phase read by
channel is 0 on either one. -/
theorem constructionValues : Obligations.ConstructionValues := fun _ =>
  ⟨rfl, rfl, rfl, rfl, rfl, Machine.DeviceState.defaults_freq, Machine.DeviceState.defaults_phase,
    rfl, rfl, rfl, rfl⟩

end Sys2Proof
end

section
/-! The fields of a register word (R75, R76): a prefix over a payload. What the prefix and the payload
say is read back by bit position. -/

namespace Sys2Proof.Machine

/-- The bits from `n` up are the prefix's: the payload ends below them. -/
theorem prefix_or_payload_high {n : Nat} (pre : Word) (p : BitVec n) (len : Nat) :
    (pre ||| p.setWidth 16).extractLsb' n len = pre.extractLsb' n len := by
  apply BitVec.eq_of_getLsbD_eq
  intro k _
  simp

/-- The low `n` bits are the payload where the prefix leaves them 0. -/
theorem prefix_or_payload_low {n : Nat} {pre : Word} (p : BitVec n) (hn : n ≤ 16)
    (hpre : pre.setWidth n = 0#n) : (pre ||| p.setWidth 16).extractLsb' 0 n = p := by
  rw [← BitVec.setWidth_eq_extractLsb' hn, BitVec.setWidth_or, hpre, BitVec.zero_or,
    BitVec.setWidth_setWidth_of_le p hn, BitVec.setWidth_eq]

theorem phaseRegisterWord_prefix (p : Int) : (phaseRegisterWord p).extractLsb' 12 4 = 0b1100 :=
  prefix_or_payload_high 0xC000 (phaseField p) 4

theorem phaseRegisterWord_field (p : Int) : (phaseRegisterWord p).extractLsb' 0 12 = phaseField p :=
  prefix_or_payload_low (phaseField p) (by decide) rfl

end Sys2Proof.Machine

namespace Sys2Proof

open Machine

/-- Settles O11: the prefix and the payload read back, and the payload's value `phaseField_toNat`. -/
theorem phaseRegisterWordFields : Obligations.PhaseRegisterWordFields := by
  intro p
  rw [phaseRegisterWord_field, phaseField_toNat]
  exact ⟨phaseRegisterWord_prefix p, rfl, fun nonneg le =>
    Int.emod_eq_of_lt nonneg (Int.lt_of_le_of_lt le (by decide))⟩

end Sys2Proof
end

section
/-! The decoder of command records (R81): one equation per op code, and that the four codes are all there
are. -/

namespace Sys2Proof

theorem decodeCommand_of_init {r : CommandRecord} (h : r.op = Op.init.code) :
    decodeCommand r = .init r.clockHz := by
  rw [decodeCommand, h, opOfCode_code]

theorem decodeCommand_of_setFreq {r : CommandRecord} (h : r.op = Op.setFreq.code) :
    decodeCommand r = .setFreq r.freqHz r.chan r.phase := by
  rw [decodeCommand, h, opOfCode_code]

theorem decodeCommand_of_setMode {r : CommandRecord} (h : r.op = Op.setMode.code) :
    decodeCommand r = .setMode r.mode := by
  rw [decodeCommand, h, opOfCode_code]

theorem decodeCommand_of_shutdown {r : CommandRecord} (h : r.op = Op.shutdown.code) :
    decodeCommand r = .shutdown := by
  rw [decodeCommand, h, opOfCode_code]

theorem opCode_exhaustive :
    ∀ c : BitVec 2, c = 0b00 ∨ c = 0b01 ∨ c = 0b10 ∨ c = 0b11 := by decide

/-- Settles O16: the equation of each op code, and the four codes exhaust two bits. -/
theorem commandOpCodes : Obligations.CommandOpCodes := fun r =>
  ⟨decodeCommand_of_init, decodeCommand_of_setFreq, decodeCommand_of_setMode,
    decodeCommand_of_shutdown, opCode_exhaustive r.op⟩

end Sys2Proof
end

section
/-! The tuning word (R101, R102): how far a rounded value can lie above the floor, which gives its sign
for a negative frequency, and the fault outside `clk > 0`. -/

namespace Sys2Proof.Machine

/-- Neither tie rule rounds past the next integer. -/
theorem roundP_le_floor_add_one (r : Rounding) (x : Rat) : roundP r x ≤ x.floor + 1 := by
  cases r with
  | halfEven =>
    change roundHalfEven x ≤ x.floor + 1
    obtain ⟨-, below⟩ | ⟨-, above⟩ | ⟨-, -, tie⟩ := roundHalfEven_cases x
    all_goals omega
  | halfUp =>
    change (x + 1 / 2).floor ≤ x.floor + 1
    have lt : x + 1 / 2 < ((x.floor + 1 + 1 : Int) : Rat) := by
      push_cast
      linarith [lt_floor_add_one x]
    exact Int.lt_add_one_iff.mp (Rat.floor_lt_iff.mpr lt)

theorem roundP_nonpos_of_neg {r : Rounding} {x : Rat} (h : x < 0) : roundP r x ≤ 0 :=
  (roundP_le_floor_add_one r x).trans (Rat.floor_lt_iff.mpr (by exact_mod_cast h))

@[simp] theorem roundP_zero (r : Rounding) : roundP r 0 = 0 := by cases r <;> decide +kernel

theorem twRaw_zero_of_pos {r : Rounding} {clk : Rat} (h : 0 < clk) : twRaw r 0 clk = .ok 0 := by
  simp [twRaw_of_pos h]

theorem tuningWord_of_not_pos {r : Rounding} {f clk : Rat} (h : clk ≤ 0) :
    tuningWord r f clk = .error .clockOutsideDomain := by
  rw [tuningWord, twRaw_of_not_pos h]

end Sys2Proof.Machine

namespace Sys2Proof

open Machine

/-- Settles O3: the equations of `twRaw` and `tuningWord` on either side of `clk = 0`; a negative
frequency has a negative quotient, which rounds to no positive value. -/
theorem tuningWordIsClampedRoundedQuotient : Obligations.TuningWordIsClampedRoundedQuotient := by
  intro r f clk
  refine ⟨fun hclk => ⟨twRaw_of_not_pos hclk, tuningWord_of_not_pos hclk⟩, fun hclk =>
    ⟨twRaw_of_pos hclk, ?zero, fun hf => roundP_nonpos_of_neg ?negative, _, tuningWord_of_pos hclk,
      clampTuningWord_toNat _⟩⟩
  case zero =>
    rintro rfl
    exact twRaw_zero_of_pos hclk
  case negative => exact div_neg_of_neg_of_pos (mul_neg_of_neg_of_pos hf (by norm_num)) hclk

end Sys2Proof
end

section
/-! The halves of a tuning word (R103) as numbers. -/

namespace Sys2Proof.Machine

theorem lsb14_toNat (w : TuningWord) : (lsb14 w).toNat = w.toNat % 2 ^ 14 :=
  BitVec.extractLsb'_toNat 0 14 w

/-- The mask drops nothing: a 28-bit word has 14 bits above its low 14. -/
theorem msb14_toNat (w : TuningWord) : (msb14 w).toNat = w.toNat / 2 ^ 14 := by
  have lt : w.toNat / 2 ^ 14 < 2 ^ 14 := Nat.div_lt_of_lt_mul w.isLt
  rw [msb14, BitVec.extractLsb'_toNat, Nat.shiftRight_eq_div_pow, Nat.mod_eq_of_lt lt]

end Sys2Proof.Machine

namespace Sys2Proof

/-- Settles O5: the value of each half. -/
theorem splitIsLowAndHighHalf : Obligations.SplitIsLowAndHighHalf := fun w =>
  ⟨Machine.lsb14_toNat w, Machine.msb14_toNat w⟩

end Sys2Proof
end

section
/-! The FREQ word (R105): the channel's prefix over the payload, and the operands it refuses. -/

namespace Sys2Proof.Machine

/-- The channel's select bits, FREQ0's `01` and FREQ1's `10` (R7). -/
theorem freqPrefix_selectBits :
    ∀ ch : Chan, (freqPrefix ch).extractLsb' 14 2 = if ch = 0 then 0b01 else 0b10 := by decide

theorem freqPrefix_low_zero : ∀ ch : Chan, (freqPrefix ch).setWidth 14 = 0#14 := by decide

theorem freqRegisterWord_prefix (p : Half) (ch : Chan) (b : Bool) :
    (freqRegisterWord p ch b).extractLsb' 14 2 = if ch = 0 then 0b01 else 0b10 :=
  (prefix_or_payload_high (freqPrefix ch) p 2).trans (freqPrefix_selectBits ch)

theorem freqRegisterWord_payload (p : Half) (ch : Chan) (b : Bool) :
    (freqRegisterWord p ch b).extractLsb' 0 14 = p :=
  prefix_or_payload_low p (by decide) (freqPrefix_low_zero ch)

theorem checkedFreqRegisterWord_refuses {n c : Nat} (b : Bool) (h : 2 ^ 14 ≤ n ∨ 2 ≤ c) :
    checkedFreqRegisterWord n c b = .error .operandOutsideType :=
  if_neg (by omega)

end Sys2Proof.Machine

namespace Sys2Proof

open Machine

/-- Settles O10: prefix and payload read back, and the two sides of the operand check. -/
theorem freqRegisterWordFields : Obligations.FreqRegisterWordFields :=
  ⟨fun p ch b => ⟨freqRegisterWord_isMsb p ch b !b, freqRegisterWord_payload p ch b,
    freqRegisterWord_prefix p ch b⟩,
    fun _ _ b => ⟨checkedFreqRegisterWord_fits b, checkedFreqRegisterWord_refuses b⟩⟩

end Sys2Proof
end

section
/-! The register words' half of the dispatch (R138): decoding a word loses nothing of it, so a step of a
running sequence is the write step of its scheduled word. -/

namespace Sys2Proof.Machine

/-- A word whose high bits are a prefix's is that prefix over its own low `n` bits (R70). -/
theorem eq_prefix_or_payload {n : Nat} {w pre : Word}
    (high : w.extractLsb' n (16 - n) = pre.extractLsb' n (16 - n)) (hpre : pre.setWidth n = 0#n) :
    w = pre ||| (w.extractLsb' 0 n).setWidth 16 := by
  apply BitVec.eq_of_getLsbD_eq
  intro k hk
  by_cases hkn : k < n
  · have low : pre.getLsbD k = false := by
      simpa [hkn] using congrArg (BitVec.getLsbD · k) hpre
    rw [BitVec.getLsbD_or, low]
    simp [hk, hkn]
  · have bit := congrArg (BitVec.getLsbD · (k - n)) high
    have hnk : n ≤ k := not_lt.mp hkn
    simpa [hkn, hk, hnk, show k - n < 16 - n by omega] using bit

theorem eq_freqRegisterWord {w : Word} (ch : Chan)
    (high : w.extractLsb' 14 2 = (freqPrefix ch).extractLsb' 14 2) :
    w = freqRegisterWord (BitVec.ofNat 14 (w.extractLsb' 0 14).toNat) ch false := by
  rw [BitVec.ofNat_toNat, BitVec.setWidth_eq]
  exact eq_prefix_or_payload high (freqPrefix_low_zero ch)

theorem eq_phaseRegisterWord {w : Word} (format : w.extractLsb' 14 2 = 0b11)
    (space : w.extractLsb' 12 2 = 0b00) : w = phaseRegisterWord (w.extractLsb' 0 12).toNat := by
  have high : w.extractLsb' 12 4 = (0xC000 : Word).extractLsb' 12 4 := by
    calc w.extractLsb' 12 4
        = w.extractLsb' 14 2 ++ w.extractLsb' 12 2 :=
          (BitVec.extractLsb'_append_extractLsb'_eq_extractLsb' (len₁ := 2) (len₂ := 2) rfl).symm
      _ = (0xC000 : Word).extractLsb' 12 4 := by rw [format, space]; rfl
  rw [phaseRegisterWord, phaseField, BitVec.ofInt_natCast, BitVec.ofNat_toNat, BitVec.setWidth_eq]
  exact eq_prefix_or_payload high rfl

theorem writesWord_of_mem_ctrlInstrs {cfg : Config} {w : Word} {i : Instr} (hi : i ∈ ctrlInstrs)
    (hw : wordOf cfg i = some w) : WritesWord cfg i w := by
  cases i with
  | controlWord m c => exact .inl ⟨m, c, rfl, (Option.some.inj hw).symm⟩
  | resetQualifiedWord m c => exact .inr (.inl ⟨m, c, rfl, (Option.some.inj hw).symm⟩)
  | resetWord => exact .inr (.inr (.inl ⟨rfl, (Option.some.inj hw).symm⟩))
  | _ => simp [ctrlInstrs] at hi

/-- What a word decodes to hands over that word, every operand in its field. -/
theorem decodeWord_writesWord {cfg : Config} {w : Word} {i : Instr} (h : decodeWord cfg w = .ok i) :
    WritesWord cfg i w := by
  unfold decodeWord at h
  split_ifs at h with freq0 freq1 format space
  · cases h
    exact .inr (.inr (.inr (.inl ⟨_, BitVec.isLt _, rfl, eq_freqRegisterWord 0 freq0⟩)))
  · cases h
    exact .inr (.inr (.inr (.inr (.inl ⟨_, BitVec.isLt _, rfl, eq_freqRegisterWord 1 freq1⟩))))
  · cases h
    exact .inr (.inr (.inr (.inr (.inr ⟨_, rfl, eq_phaseRegisterWord format space⟩))))
  · split at h
    · next found =>
      cases h
      obtain ⟨mem, word⟩ := ctrl_found found
      exact writesWord_of_mem_ctrlInstrs mem word
    · cases h

theorem exec_eq_writeStep {s : State} {i : Instr} {w : Word} (h : WritesWord s.cfg i w) :
    exec i s = writeStep w s := by
  obtain ⟨m, c, rfl, rfl⟩ | ⟨m, c, rfl, rfl⟩ | ⟨rfl, rfl⟩ | ⟨p, hp, rfl, rfl⟩ | ⟨p, hp, rfl, rfl⟩ |
    ⟨p, rfl, rfl⟩ := h
  · exact exec_controlWord m c s
  · exact exec_resetQualifiedWord m c s
  · exact exec_resetWord s
  · rw [exec_freq0, checkedFreqRegisterWord_fits false hp (by decide)]; rfl
  · rw [exec_freq1, checkedFreqRegisterWord_fits false hp (by decide)]; rfl
  · exact exec_phase p s

/-- Decoding makes no difference to the step of a running sequence (R138, log entry 17). -/
theorem step_eq_writeStep {s : State} {w : Word} (noReset : s.resetInput = false)
    (scheduled : s.scheduledWord = some w) : step s = writeStep w s := by
  cases decoded : decodeWord s.cfg w with
  | error d => exact step_undecodable noReset scheduled decoded
  | ok i =>
    simpa [step, noReset, fetch, scheduledWord_busy scheduled, scheduled, decode, decoded] using
      exec_eq_writeStep (decodeWord_writesWord decoded)

theorem scheduledWord_of_busy {s : State} (busy : s.seq = .busy) :
    s.scheduledWord = s.seqWords.get s.step.toNat := by
  simp [State.scheduledWord, busy]

theorem exists_scheduledWord {s : State} (busy : s.seq = .busy) (inside : s.step.toNat < 5) :
    ∃ w, s.scheduledWord = some w := by
  rw [← Option.isSome_iff_exists, scheduledWord_of_busy busy, SeqWords.get_isSome]
  exact decide_eq_true inside

theorem portReady_iff (s : State) : s.portReady = true ↔ s.seq = .idle := decide_eq_true_iff

end Sys2Proof.Machine

namespace Sys2Proof

open Machine

/-- Settles O19: the step is the write step of the scheduled word, which waits for its answer. -/
theorem stepWaits : Obligations.StepWaits := by
  intro s noReset busy inside noAnswer
  obtain ⟨w, scheduled⟩ := exists_scheduledWord busy inside
  constructor
  · rw [step_eq_writeStep noReset scheduled, writeStep_wait noAnswer]
  · simp [← Bool.not_eq_true, portReady_iff, busy]

end Sys2Proof
end

section
/-! The end of SHUTDOWN (R143): what an answer does to its write, and what its commit record is. -/

namespace Sys2Proof.Machine

theorem takeAnswer_ok_of_shutdown {s : State} (op : s.seqOp = .shutdown)
    (last : s.step + 1 = s.seqLen) : s.takeAnswer .ok = s.advance.endShutdown .ok := by
  simp only [State.takeAnswer, State.takeOk, last, op, if_true]

theorem takeAnswer_err_of_shutdown {s : State} (c : TransportCause) (op : s.seqOp = .shutdown) :
    s.takeAnswer (.err c) = s.endShutdown (.err c) := by
  simp only [State.takeAnswer, State.takeErr, op]

/-- A running SHUTDOWN staged its rule's commit record (R135, R137). -/
theorem pend_of_shutdown {s : State} (staged : StagedInv s) (busy : s.seq = .busy)
    (op : s.seqOp = .shutdown) : s.pend = shutdownPend := by
  obtain ⟨ws, gives, -⟩ := staged busy
  rw [op] at gives
  obtain ⟨-, rejected⟩ | ⟨-, ran⟩ := shutdownRule_cases s
  · cases rejected.symm.trans gives
  · exact (AcceptOutcome.run.inj (ran.symm.trans gives)).2.symm

end Sys2Proof.Machine

namespace Sys2Proof

open Machine

/-- Settles O37: the one write is the last, so either answer enters RESET with the staged device state;
`ERR` logs its cause besides. -/
theorem shutdownEndsWhateverTheAnswer : Obligations.ShutdownEndsWhateverTheAnswer := by
  intro s i w a rest writes busy first one word op answered
  have scheduled : s.scheduledWord = some w := by
    rw [scheduledWord_of_busy busy, first, ← word]; rfl
  have defaults (inv : Inv s) : s.pend.dev = ⟨.sine, 0, 0, 0, 0, 0⟩ := by
    rw [pend_of_shutdown inv.staged busy op]; rfl
  refine ⟨_, (exec_eq_writeStep writes).trans (writeStep_answer scheduled answered), ?_⟩
  cases a with
  | ok =>
    have last : s.step + 1 = s.seqLen := by rw [first, one]; rfl
    rw [takeAnswer_ok_of_shutdown (s := s.recordWrite w .ok rest) op last]
    simpa using defaults
  | err c =>
    rw [takeAnswer_err_of_shutdown (s := s.recordWrite w (.err c) rest) c op]
    simpa using defaults

end Sys2Proof
end

section
/-! The command port while a sequence runs (R130). -/

namespace Sys2Proof.Machine

/-- Every command and every front-end line is the acceptance of a command (R88, R89, R131). -/
theorem exec_eq_acceptCommand {i : Instr} (h : IsPortInstr i) (s : State) :
    ∃ op o rest, exec i s = acceptCommand op o rest s := by
  obtain ⟨clk, rfl⟩ | ⟨f, c, p, rfl⟩ | ⟨code, rfl⟩ | rfl | ⟨f, m, ⟨rfl, -⟩ | ⟨rfl, -⟩ | ⟨rfl, -⟩⟩ |
    rfl | rfl := h
  · exact ⟨_, _, _, exec_init clk s⟩
  · exact ⟨_, _, _, exec_setFreq f c p s⟩
  · exact ⟨_, _, _, exec_setMode code s⟩
  · exact ⟨_, _, _, exec_shutdown s⟩
  · exact ⟨_, _, _, exec_sine f s⟩
  · exact ⟨_, _, _, exec_triangle f s⟩
  · exact ⟨_, _, _, exec_square f s⟩
  · exact ⟨_, _, _, exec_exit s⟩
  · exact ⟨_, _, _, exec_quit s⟩

end Sys2Proof.Machine

namespace Sys2Proof

open Machine

/-- Settles O31: a command or line is an acceptance, which holds the state while `seq = BUSY`. -/
theorem commandsHeldWhileBusy : Obligations.CommandsHeldWhileBusy := by
  refine fun s => ⟨portReady_iff s, fun i port busy => ?_⟩
  obtain ⟨op, o, rest, accepts⟩ := exec_eq_acceptCommand port s
  rw [accepts, acceptCommand_busy busy]

end Sys2Proof
end

section
/-! What ends at once with an error (R131, R136, R187): the acceptance of a command whose rule rejects
it, and, the transport's errors aside, nothing else. -/

namespace Sys2Proof.Machine

theorem errorKind_status_injective : Function.Injective ErrorKind.status := by
  rintro ⟨⟩ ⟨⟩ ⟨⟩ <;> rfl

/-- A rejected command ends at once with its error (R136). -/
theorem acceptCommand_reject {op : Op} {e : ErrorKind} {s : State} (idle : s.seq = .idle) :
    acceptCommand op (.ok (.reject e)) s.port.tail s = .next (endedAtOnce s e.status) := by
  simp [acceptCommand_idle idle, endedAtOnce, State.respond, State.withPort, idle]

/-- Acceptance newly reports an error only by rejecting the command with it. -/
theorem acceptCommand_raises {op : Op} {o : Except Fault AcceptOutcome} {rest : List PortItem}
    {s t : State} {e : ErrorKind} (h : acceptCommand op o rest s = .next t)
    (newly : s.status ≠ e.status) (reports : t.status = e.status) :
    o = .ok (.reject e) ∧ t = (s.withPort rest).respond e.status 0 none := by
  obtain ⟨-, rfl⟩ | ⟨-, a, rfl, rfl⟩ := acceptCommand_next h
  · exact absurd reports newly
  · cases a with
    | reject e' =>
      obtain rfl : e' = e := errorKind_status_injective reports
      exact ⟨rfl, rfl⟩
    | doneNoWrite ev => exact absurd reports.symm (errorKind_status_ne_ok e)
    | run ws p => exact absurd reports newly

/-- What an answer can leave in `status` (R139, R141 to R143). -/
theorem takeAnswer_status (s : State) (a : Answer) :
    (s.takeAnswer a).status = s.status ∨ (s.takeAnswer a).status = .ok ∨
      (s.takeAnswer a).status = .transportError := by
  obtain ⟨-, -, run⟩ | ⟨-, -, -, ends⟩ | ⟨-, -, -, ends⟩ | ⟨c, -, -, aborts⟩ | ⟨c, -, -, ends⟩ :=
    takeAnswer_cases s a
  · exact .inl (run ▸ rfl)
  · exact .inr (.inl (ends ▸ rfl))
  · exact .inr (.inl (ends ▸ rfl))
  · exact .inr (.inr (aborts ▸ rfl))
  · exact .inr (.inl (ends ▸ rfl))

/-- A write step newly reports no error but the transport's (R142). -/
theorem writeStepChecked_raises {w : Except Refusal Word} {s t : State} {e : ErrorKind}
    (h : writeStepChecked w s = .next t) (newly : s.status ≠ e.status)
    (reports : t.status = e.status) : e = .transportError := by
  cases w with
  | error r => cases h
  | ok w =>
    obtain rfl | ⟨w, a, rest, -, -, rfl⟩ := written_next h
    · exact absurd reports newly
    · obtain kept | ok | failed := takeAnswer_status (s.recordWrite w a rest) a
      · exact absurd (kept.symm.trans reports) newly
      · exact absurd (reports.symm.trans ok) (errorKind_status_ne_ok e)
      · exact errorKind_status_injective (reports.symm.trans failed)

end Sys2Proof.Machine
end

section
/-! Which error each command's rule rejects with, and when (R181 to R183, R185). -/

namespace Sys2Proof.Machine

theorem initRule_protocolStateError_iff {s : State} {clk : Rat} :
    initRule s clk = .reject .protocolStateError ↔ s.ctl = .ready := by
  obtain ⟨state, rule⟩ | ⟨state, -, rule⟩ | ⟨state, -, rule⟩ := initRule_cases s clk <;>
    simp [state, rule]

theorem initRule_configError_iff {s : State} {clk : Rat} :
    initRule s clk = .reject .configError ↔ s.ctl ≠ .ready ∧ clk ≤ 0 := by
  obtain ⟨state, rule⟩ | ⟨state, clock, rule⟩ | ⟨state, clock, rule⟩ := initRule_cases s clk
  · simp [state, rule]
  · simp [state, rule, clock]
  · simp [rule, clock]

theorem setFreqRule_protocolStateError_iff {s : State} {f : Rat} {c : Chan} {p : Int} :
    setFreqRule s f c p = .ok (.reject .protocolStateError) ↔ s.ctl ≠ .ready := by
  obtain ⟨state, rule⟩ | ⟨state, -, rule⟩ | ⟨state, -, -, rule⟩ |
    ⟨state, -, clk, -, -, raw, -, ⟨-, rule⟩ | ⟨-, -, -, rule⟩⟩ := setFreqRule_cases s f c p <;>
    simp [state, rule]

theorem setFreqRule_ne_configError (s : State) (f : Rat) (c : Chan) (p : Int) :
    setFreqRule s f c p ≠ .ok (.reject .configError) := by
  obtain ⟨-, rule⟩ | ⟨-, -, rule⟩ | ⟨-, -, -, rule⟩ |
    ⟨-, -, clk, -, -, raw, -, ⟨-, rule⟩ | ⟨-, -, -, rule⟩⟩ := setFreqRule_cases s f c p <;>
    simp [rule]

/-- SET_FREQ's three ranges (R182), where the state and the clock are as R31 has them in `READY`. -/
theorem setFreqRule_outOfRange {s : State} {f clk : Rat} {c : Chan} {p : Int}
    (ready : s.ctl = .ready) (clock : s.clock = some clk) (pos : 0 < clk)
    (outside : f ≤ 0 ∨ maxTuningWord < roundP s.cfg.round (f * 2 ^ 28 / clk) ∨ p < 0 ∨ 4095 < p) :
    setFreqRule s f c p = .ok (.reject .outOfRange) := by
  obtain ⟨state, -⟩ | ⟨-, -, rule⟩ | ⟨-, -, noClock, -⟩ |
    ⟨-, freq, clk', clock', -, raw, rfl, ⟨-, rule⟩ | ⟨fits, low, high, -⟩⟩ :=
    setFreqRule_cases s f c p
  · exact absurd ready state
  · exact rule
  · exact absurd pos (noClock clk clock).not_gt
  · exact rule
  · obtain rfl : clk = clk' := Option.some.inj (clock.symm.trans clock')
    have := outside.resolve_left freq.not_ge
    omega

theorem setModeRule_protocolStateError_iff {s : State} {code : BitVec 2} :
    setModeRule s code = .reject .protocolStateError ↔ s.ctl ≠ .ready := by
  obtain ⟨state, rule⟩ | ⟨state, -, rule⟩ | ⟨state, m, -, rule⟩ := setModeRule_cases s code <;>
    simp [state, rule]

theorem setModeRule_outOfRange_iff {s : State} {code : BitVec 2} :
    setModeRule s code = .reject .outOfRange ↔ s.ctl = .ready ∧ modeOfCode code = none := by
  obtain ⟨state, rule⟩ | ⟨state, mode, rule⟩ | ⟨state, m, mode, rule⟩ := setModeRule_cases s code
  · simp [state, rule]
  · simp [state, rule, mode]
  · simp [rule, mode]

theorem setModeRule_ne_configError (s : State) (code : BitVec 2) :
    setModeRule s code ≠ .reject .configError := by
  obtain ⟨-, rule⟩ | ⟨-, -, rule⟩ | ⟨-, m, -, rule⟩ := setModeRule_cases s code <;> simp [rule]

/-- SHUTDOWN is rejected in no state (R135). -/
theorem shutdownRule_ne_reject (s : State) (e : ErrorKind) : shutdownRule s ≠ .reject e := by
  obtain ⟨-, rule⟩ | ⟨-, rule⟩ := shutdownRule_cases s <;> simp [rule]

theorem shutdownRule_of_not_ready {s : State} (h : s.ctl ≠ .ready) :
    shutdownRule s = .doneNoWrite .protocolStateError := if_pos h

end Sys2Proof.Machine
end

section
/-! `CONFIG_ERROR` (R181). -/

namespace Sys2Proof.Machine

/-- No rule but INIT's rejects with `CONFIG_ERROR`, and no write reports it. -/
theorem eq_init_of_exec_configError {i : Instr} {s t : State} (h : exec i s = .next t)
    (newly : s.status ≠ .configError) (reports : t.status = .configError) :
    ∃ clk, i = .init clk := by
  have rejected {op o rest} (accepts : acceptCommand op o rest s = .next t) :
      o = .ok (.reject .configError) :=
    (acceptCommand_raises (e := .configError) accepts newly reports).1
  have written {w} (writes : writeStepChecked w s = .next t) : ∃ clk, i = .init clk :=
    nomatch writeStepChecked_raises (e := .configError) writes newly reports
  cases i with
  | init clk => exact ⟨clk, rfl⟩
  | setFreq f c p => exact absurd (rejected h) (setFreqRule_ne_configError s f c p)
  | setMode _ | sine _ | triangle _ | square _ =>
    exact absurd (Except.ok.inj (rejected h)) (setModeRule_ne_configError s _)
  | shutdown | exit | quit => exact absurd (Except.ok.inj (rejected h)) (shutdownRule_ne_reject s _)
  | controlWord _ _ | resetQualifiedWord _ _ | resetWord | phase _ => exact written (w := .ok _) h
  | freq0 _ | freq1 _ => exact written h

end Sys2Proof.Machine

namespace Sys2Proof

open Machine

/-- Settles O23: INIT's rule rejects with `CONFIG_ERROR` exactly for such a clock, and no other
instruction reports it. -/
theorem configErrorIsInitsAlone : Obligations.ConfigErrorIsInitsAlone := by
  constructor
  · intro s clk idle state clock
    rw [exec_init, initRule_configError_iff.mpr ⟨state, clock⟩]
    exact acceptCommand_reject idle
  · intro s t i newly h reports
    obtain ⟨clk, rfl⟩ := eq_init_of_exec_configError h newly reports
    rw [exec_init] at h
    obtain ⟨rule, rfl⟩ := acceptCommand_raises (e := .configError) h newly reports
    exact ⟨clk, rfl, (initRule_configError_iff.mp (Except.ok.inj rule)).2, rfl, rfl, rfl⟩

end Sys2Proof
end

section
/-! `OUT_OF_RANGE` (R182, R183). -/

namespace Sys2Proof

open Machine

/-- Settles O25: outside any of its ranges SET_FREQ's rule rejects. -/
theorem setFreqOutOfRange : Obligations.SetFreqOutOfRange := by
  intro s f clk c p idle ready clock pos outside
  have ranges : f ≤ 0 ∨ maxTuningWord < roundP s.cfg.round (f * 2 ^ 28 / clk) ∨ p < 0 ∨ 4095 < p := by
    refine outside.imp_right (Or.imp_left ?_)
    rintro ⟨raw, given, exceeds⟩
    rwa [← Except.ok.inj (given.symm.trans (twRaw_of_pos pos))]
  rw [exec_setFreq, setFreqRule_outOfRange ready clock pos ranges]
  exact acceptCommand_reject idle

/-- Settles O27: the code `11` names no mode. -/
theorem setModeReservedCode : Obligations.SetModeReservedCode := by
  intro s idle ready
  rw [exec_setMode, setModeRule_outOfRange_iff.mpr ⟨ready, rfl⟩]
  exact acceptCommand_reject idle

end Sys2Proof
end

section
/-! `PROTOCOL_STATE_ERROR` (R185). -/

namespace Sys2Proof.Machine

/-- SHUTDOWN outside `READY` is logged and ends with `OK` (R135). -/
theorem exec_shutdown_of_not_ready {s : State} (idle : s.seq = .idle) (state : s.ctl ≠ .ready) :
    exec .shutdown s =
      .next (((s.withPort s.port.tail).emit .protocolStateError).respond .ok 0 none) := by
  rw [exec_shutdown, shutdownRule_of_not_ready state, acceptCommand_idle idle,
    takeOutcome_doneNoWrite]

end Sys2Proof.Machine

namespace Sys2Proof

open Machine

/-- Settles O29: each illegal cell of the table is where a command's rule rejects with
`PROTOCOL_STATE_ERROR`, so no legal one reports it. -/
theorem commandLegality : Obligations.CommandLegality := by
  refine fun s idle => ⟨fun state clk => ?init, fun state f c p => ?setFreq,
    fun state code => ?setMode, fun state => ?shutdown, fun i t legal newly h reports => ?legal⟩
  case init =>
    rw [exec_init, initRule_protocolStateError_iff.mpr state]
    exact acceptCommand_reject idle
  case setFreq =>
    rw [exec_setFreq, setFreqRule_protocolStateError_iff.mpr state]
    exact acceptCommand_reject idle
  case setMode =>
    rw [exec_setMode, setModeRule_protocolStateError_iff.mpr state]
    exact acceptCommand_reject idle
  case shutdown => exact ⟨_, exec_shutdown_of_not_ready idle state, rfl, rfl, rfl⟩
  case legal =>
    have rejected {op o rest} (accepts : acceptCommand op o rest s = .next t) :
        o = .ok (.reject .protocolStateError) :=
      (acceptCommand_raises (e := .protocolStateError) accepts newly reports).1
    obtain ⟨⟨clk, rfl⟩, state⟩ | ⟨⟨f, c, p, rfl⟩ | ⟨code, rfl⟩, state⟩ | rfl := legal
    · exact state (initRule_protocolStateError_iff.mp (Except.ok.inj (rejected h)))
    · exact setFreqRule_protocolStateError_iff.mp (rejected h) state
    · exact setModeRule_protocolStateError_iff.mp (Except.ok.inj (rejected h)) state
    · exact shutdownRule_ne_reject s _ (Except.ok.inj (rejected h))

end Sys2Proof
end

section
/-! The commands' rules by their outcome (R131): what each of the three outcomes says of the state the
rule judged. -/

namespace Sys2Proof.Machine

/-- A command that runs: where each may, what it stages and what it will commit (R132 to R135). -/
theorem ruleGives_run {s : State} {op : Op} {ws : List Word} {p : Pend}
    (h : RuleGives s op (.run ws p)) :
    (op = .init ∧ s.ctl ≠ .ready ∧ ∃ clk, 0 < clk ∧ ws = initWords s.cfg ∧ p = initPend clk) ∨
    (op = .setFreq ∧ s.ctl = .ready ∧ ∃ f c q tw, 0 < f ∧
      ws = setFreqWords s.cfg s.dev.mode c tw q ∧ p = setFreqPend s f c q) ∨
    (op = .setMode ∧ s.ctl = .ready ∧ ∃ m, ws = setModeWords s m ∧ p = setModePend s m) ∨
    (op = .shutdown ∧ s.ctl = .ready ∧ ws = [resetWord s.cfg] ∧ p = shutdownPend) := by
  cases op with
  | init =>
    obtain ⟨clk, h⟩ := h
    obtain ⟨-, rule⟩ | ⟨-, -, rule⟩ | ⟨state, pos, rule⟩ := initRule_cases s clk
    · cases rule.symm.trans h
    · cases rule.symm.trans h
    · cases rule.symm.trans h
      exact .inl ⟨rfl, state, clk, pos, rfl, rfl⟩
  | setFreq =>
    obtain ⟨f, c, q, h⟩ := h
    obtain ⟨-, rule⟩ | ⟨-, -, rule⟩ | ⟨-, -, -, rule⟩ |
      ⟨state, pos, clk, -, -, raw, -, ⟨-, rule⟩ | ⟨-, -, -, rule⟩⟩ := setFreqRule_cases s f c q
    · cases rule.symm.trans h
    · cases rule.symm.trans h
    · cases rule.symm.trans h
    · cases rule.symm.trans h
    · cases rule.symm.trans h
      exact .inr (.inl ⟨rfl, state, f, c, q, _, pos, rfl, rfl⟩)
  | setMode =>
    obtain ⟨code, h⟩ := h
    obtain ⟨-, rule⟩ | ⟨-, -, rule⟩ | ⟨state, m, -, rule⟩ := setModeRule_cases s code
    · cases rule.symm.trans h
    · cases rule.symm.trans h
    · cases rule.symm.trans h
      exact .inr (.inr (.inl ⟨rfl, state, m, rfl, rfl⟩))
  | shutdown =>
    obtain ⟨-, rule⟩ | ⟨state, rule⟩ := shutdownRule_cases s
    · cases rule.symm.trans h
    · cases rule.symm.trans h
      exact .inr (.inr (.inr ⟨rfl, state, rfl, rfl⟩))

/-- Only SHUTDOWN ends without a write and without an error, and only outside `READY` (R135). -/
theorem ruleGives_doneNoWrite {s : State} {op : Op} {ev : LogEvent}
    (h : RuleGives s op (.doneNoWrite ev)) :
    op = .shutdown ∧ s.ctl ≠ .ready ∧ ev = .protocolStateError := by
  cases op with
  | init =>
    obtain ⟨clk, h⟩ := h
    obtain ⟨-, rule⟩ | ⟨-, -, rule⟩ | ⟨-, -, rule⟩ := initRule_cases s clk <;>
      cases rule.symm.trans h
  | setFreq =>
    obtain ⟨f, c, q, h⟩ := h
    obtain ⟨-, rule⟩ | ⟨-, -, rule⟩ | ⟨-, -, -, rule⟩ |
      ⟨-, -, clk, -, -, raw, -, ⟨-, rule⟩ | ⟨-, -, -, rule⟩⟩ := setFreqRule_cases s f c q <;>
      cases rule.symm.trans h
  | setMode =>
    obtain ⟨code, h⟩ := h
    obtain ⟨-, rule⟩ | ⟨-, -, rule⟩ | ⟨-, m, -, rule⟩ := setModeRule_cases s code <;>
      cases rule.symm.trans h
  | shutdown =>
    obtain ⟨state, rule⟩ | ⟨-, rule⟩ := shutdownRule_cases s
    · cases rule.symm.trans h
      exact ⟨rfl, state, rfl⟩
    · cases rule.symm.trans h

/-- No command is rejected with the transport's error (R181 to R185). -/
theorem ruleGives_reject {s : State} {op : Op} {e : ErrorKind} (h : RuleGives s op (.reject e)) :
    e ≠ .transportError := by
  cases op with
  | init =>
    obtain ⟨clk, h⟩ := h
    obtain ⟨-, rule⟩ | ⟨-, -, rule⟩ | ⟨-, -, rule⟩ := initRule_cases s clk <;>
      cases rule.symm.trans h <;> decide
  | setFreq =>
    obtain ⟨f, c, q, h⟩ := h
    obtain ⟨-, rule⟩ | ⟨-, -, rule⟩ | ⟨-, -, -, rule⟩ |
      ⟨-, -, clk, -, -, raw, -, ⟨-, rule⟩ | ⟨-, -, -, rule⟩⟩ := setFreqRule_cases s f c q <;>
      cases rule.symm.trans h <;> decide
  | setMode =>
    obtain ⟨code, h⟩ := h
    obtain ⟨-, rule⟩ | ⟨-, -, rule⟩ | ⟨-, m, -, rule⟩ := setModeRule_cases s code <;>
      cases rule.symm.trans h <;> decide
  | shutdown => exact absurd h (shutdownRule_ne_reject s e)

end Sys2Proof.Machine
end

section
/-! What a command stages is sound (R28, R31, R37, R212): committing it keeps the clock and the frequencies
as the invariant has them, and the last word written is the committed device's control word. -/

namespace Sys2Proof.Machine

theorem setChannel_freqs_nonneg {d : DeviceState} {c : Chan} {f : Rat} {q : PhaseWord} (f_nonneg : 0 ≤ f)
    (d0 : 0 ≤ d.freq0) (d1 : 0 ≤ d.freq1) :
    0 ≤ (d.setChannel c f q).freq0 ∧ 0 ≤ (d.setChannel c f q).freq1 := by
  rcases BitVec.eq_zero_or_eq_one c with rfl | rfl
  · exact ⟨f_nonneg, d1⟩
  · exact ⟨d0, f_nonneg⟩

theorem applyPend_clockInv {s : State} {op : Op} {ws : List Word} (gives : RuleGives s op (.run ws s.pend))
    (clock : ClockInv s) : ClockInv s.applyPend := by
  unfold ClockInv
  obtain ⟨-, -, clk, pos, -, pend⟩ | ⟨-, state, f, c, q, tw, -, -, pend⟩ | ⟨-, state, m, -, pend⟩ |
    ⟨-, -, -, pend⟩ := ruleGives_run gives
  · simp [pend, initPend, pos]
  · simpa [pend, setFreqPend] using clock.1 state
  · simpa [pend, setModePend, state] using clock.1 state
  · simp [pend, shutdownPend]

theorem applyPend_freqInv {s : State} {op : Op} {ws : List Word} (gives : RuleGives s op (.run ws s.pend))
    (freq : FreqInv s) : FreqInv s.applyPend := by
  unfold FreqInv
  obtain ⟨-, -, clk, -, -, pend⟩ | ⟨-, -, f, c, q, tw, pos, -, pend⟩ | ⟨-, -, m, -, pend⟩ |
    ⟨-, -, -, pend⟩ := ruleGives_run gives
  · simp [pend, initPend, DeviceState.defaults]
  · simpa [pend, setFreqPend] using setChannel_freqs_nonneg pos.le freq.1 freq.2
  · simpa [pend, setModePend, FreqInv] using freq
  · simp [pend, shutdownPend, DeviceState.defaults]

/-- SHUTDOWN enters `RESET` with the defaults it staged (R143). -/
theorem enterReset_dev_of_shutdown {s : State} (staged : StagedInv s) (busy : s.seq = .busy)
    (op : s.seqOp = .shutdown) : s.enterReset.dev = .defaults := by
  rw [State.enterReset_dev, pend_of_shutdown staged busy op, shutdownPend]

theorem ruleGives_run_lastWord {s : State} {op : Op} {ws : List Word} {p : Pend}
    (gives : RuleGives s op (.run ws p)) (notShutdown : op ≠ .shutdown) :
    ws.getLast? = some (controlWord s.cfg p.dev.mode p.dev.chan) := by
  obtain ⟨-, -, clk, -, rfl, rfl⟩ | ⟨-, -, f, c, q, tw, -, rfl, rfl⟩ | ⟨-, -, m, rfl, rfl⟩ |
    ⟨shutdown, -⟩ := ruleGives_run gives
  · rfl
  · rfl
  · rfl
  · exact absurd shutdown notShutdown

/-- A sequence has one to five words (R24). -/
theorem ruleGives_run_length {s : State} {op : Op} {ws : List Word} {p : Pend}
    (gives : RuleGives s op (.run ws p)) : 1 ≤ ws.length ∧ ws.length ≤ 5 := by
  obtain ⟨-, -, clk, -, rfl, -⟩ | ⟨-, -, f, c, q, tw, -, rfl, -⟩ | ⟨-, -, m, rfl, -⟩ |
    ⟨-, -, rfl, -⟩ := ruleGives_run gives
  all_goals simp [initWords, setFreqWords, setModeWords]

end Sys2Proof.Machine
end

section
/-! The words of a running sequence (R38): the scheduled one is the next to be delivered, and it is the
last of the staged ones where the index would reach `seq_len`. -/

namespace Sys2Proof.Machine

theorem take_succ_of_scheduled {s : State} {w : Word} (scheduled : s.scheduledWord = some w) :
    s.seqWords.toList.take (s.step.toNat + 1) = s.seqWords.toList.take s.step.toNat ++ [w] := by
  rw [scheduledWord_of_busy (scheduledWord_busy scheduled), SeqWords.get_eq_toList] at scheduled
  rw [List.take_add_one, scheduled, Option.toList_some]

theorem step_add_one_toNat {s : State} (sequence : SequenceInv s) (busy : s.seq = .busy) :
    (s.step + 1).toNat = s.step.toNat + 1 := by
  obtain ⟨before, atMost, -⟩ := sequence busy
  bv_omega

theorem advance_sequenceInv {s : State} {w : Word} {rest : List Answer} (sequence : SequenceInv s)
    (scheduled : s.scheduledWord = some w) (notLast : s.step + 1 ≠ s.seqLen) :
    SequenceInv (s.recordWrite w .ok rest).advance := by
  intro busy
  have next : (s.step + 1).toNat = s.step.toNat + 1 := step_add_one_toNat sequence busy
  obtain ⟨before, atMost, earlier, traced⟩ := sequence busy
  refine ⟨?_, atMost, earlier, ?_⟩
  · have : (s.step + 1).toNat ≠ s.seqLen.toNat := fun h => notLast (BitVec.eq_of_toNat_eq h)
    simp only [State.advance_step, State.recordWrite_step, State.advance_seqLen,
      State.recordWrite_seqLen]
    omega
  · have delivered : deliveredEvents (s.recordWrite w .ok rest).advance =
        deliveredEvents s ++ [⟨s.cfg.csId, w, .ok⟩] := by
      simp only [deliveredEvents, State.advance_step, State.recordWrite_step, next,
        State.advance_seqWords, State.recordWrite_seqWords, take_succ_of_scheduled scheduled,
        List.map_append, List.map_cons, List.map_nil, State.advance_cfg, State.recordWrite_cfg]
    rw [delivered, ← List.append_assoc, traced]
    rfl

/-- The word whose answer ends the command is the last its rule staged. -/
theorem getLast?_of_last {s : State} {ws : List Word} {w : Word} (sequence : SequenceInv s)
    (scheduled : s.scheduledWord = some w) (last : s.step + 1 = s.seqLen)
    (loaded : s.seqWords.toList.take s.seqLen.toNat = ws) : ws.getLast? = some w := by
  rw [← loaded, ← last, step_add_one_toNat sequence (scheduledWord_busy scheduled),
    take_succ_of_scheduled scheduled, List.getLast?_concat]

end Sys2Proof.Machine
end

section
/-! Every step keeps the invariant: the reset event, an acceptance and an answer, each on its own. -/

namespace Sys2Proof.Machine

/-- The invariant of a state in which a command runs: R37 speaks of idle ones only. -/
theorem inv_of_busy {s : State} (busy : s.seq = .busy) (clock : ClockInv s) (sequence : SequenceInv s)
    (staged : StagedInv s) (response : ResponseInv s) (freq : FreqInv s) : Inv s where
  clock := clock
  sequence := sequence
  staged := staged
  control := fun idle => nomatch idle.symm.trans busy
  response := response
  freq := freq

/-- The invariant at a command's end: nothing is asked of the sequencer's registers. -/
theorem respond_inv {s : State} {st : Status} {k : BitVec 3} {c : Option TransportCause}
    (clock : ClockInv s) (freq : FreqInv s)
    (control : st = .ok → s.ctl = .ready →
      s.trace.getLast? = some ⟨s.cfg.csId, controlWord s.cfg s.dev.mode s.dev.chan, .ok⟩)
    (response : k.toNat ≤ 5 ∧ (st = .transportError ↔ k ≠ 0) ∧ (st = .transportError ↔ c.isSome)) :
    Inv (s.respond st k c) where
  clock := clock
  sequence := fun busy => nomatch busy
  staged := fun busy => nomatch busy
  control := fun _ => control
  response := response
  freq := freq

theorem withPort_inv {s : State} (inv : Inv s) (items : List PortItem) : Inv (s.withPort items) where
  clock := inv.clock
  sequence := inv.sequence
  staged := inv.staged
  control := inv.control
  response := inv.response
  freq := inv.freq

theorem takeReset_inv (s : State) : Inv s.takeReset where
  clock := ⟨(nomatch ·), fun _ => ⟨rfl, rfl⟩⟩
  sequence := fun busy => nomatch busy
  staged := fun busy => nomatch busy
  control := fun _ ok => nomatch ok
  response := by simp [ResponseInv]
  freq := by simp [FreqInv, DeviceState.defaults]

theorem startSequence_inv {s : State} {op : Op} {ws : List Word} {p : Pend} (inv : Inv s)
    (gives : RuleGives s op (.run ws p)) : Inv (s.startSequence op ws p) := by
  obtain ⟨pos, atMost⟩ := ruleGives_run_length gives
  have length : (s.startSequence op ws p).seqLen.toNat = ws.length := by
    simp only [State.startSequence_seqLen, BitVec.toNat_ofNat]
    omega
  refine inv_of_busy rfl inv.clock (fun _ => ⟨?_, ?_, ?_⟩) (fun _ => ⟨ws, gives, length, ?_⟩)
    inv.response inv.freq
  · rw [length]
    exact pos
  · rw [length]
    exact atMost
  · exact List.nil_suffix
  · rw [length]
    exact SeqWords.take_load s.seqWords ws atMost

theorem takeOutcome_inv {s : State} {op : Op} {o : AcceptOutcome} (inv : Inv s)
    (gives : RuleGives s op o) : Inv (s.takeOutcome op o) := by
  cases o with
  | reject e =>
    have notTransport : e.status ≠ .transportError := fun h =>
      ruleGives_reject gives (errorKind_status_injective (a₂ := .transportError) h)
    exact respond_inv inv.clock inv.freq (fun ok => absurd ok (errorKind_status_ne_ok e))
      (by simp [notTransport])
  | doneNoWrite ev =>
    obtain ⟨-, state, -⟩ := ruleGives_doneNoWrite gives
    exact respond_inv inv.clock inv.freq (fun _ ready => absurd ready state) (by simp)
  | run ws p => exact startSequence_inv inv gives

/-- The invariant at SHUTDOWN's end, a log event or not (R143, R212). -/
theorem respond_inv_of_reset {s : State} (dev : s.dev = .defaults) (ctl : s.ctl = .reset)
    (clock : s.clock = none) : Inv (s.respond .ok 0 none) :=
  respond_inv ⟨fun ready => (nomatch ctl.symm.trans ready), fun _ => ⟨clock, dev⟩⟩
    (by simp [FreqInv, dev, DeviceState.defaults]) (fun _ ready => nomatch ctl.symm.trans ready) (by simp)

theorem takeAnswer_inv {s : State} {w : Word} {a : Answer} {rest : List Answer} (inv : Inv s)
    (scheduled : s.scheduledWord = some w) : Inv ((s.recordWrite w a rest).takeAnswer a) := by
  have busy := scheduledWord_busy scheduled
  obtain ⟨before, atMost, -⟩ := inv.sequence busy
  obtain ⟨ws, gives, -, loaded⟩ := inv.staged busy
  obtain ⟨rfl, notLast, run⟩ | ⟨rfl, last, notShutdown, commits⟩ | ⟨rfl, -, shutdown, ends⟩ |
    ⟨c, rfl, -, aborts⟩ | ⟨c, rfl, shutdown, ends⟩ := takeAnswer_cases (s.recordWrite w a rest) a
  · rw [run]
    exact inv_of_busy busy inv.clock (advance_sequenceInv inv.sequence scheduled notLast) inv.staged
      inv.response inv.freq
  · rw [commits]
    refine respond_inv (applyPend_clockInv gives inv.clock) (applyPend_freqInv gives inv.freq)
      (fun _ _ => ?_) (by simp)
    have word := (getLast?_of_last inv.sequence scheduled last loaded).symm.trans
      (ruleGives_run_lastWord gives notShutdown)
    simp [Option.some.inj word]
  · rw [ends]
    exact respond_inv_of_reset (enterReset_dev_of_shutdown inv.staged busy shutdown) rfl rfl
  · rw [aborts]
    have failed : (s.step + 1).toNat = s.step.toNat + 1 := step_add_one_toNat inv.sequence busy
    refine respond_inv inv.clock inv.freq (nomatch ·) ⟨?_, ⟨fun _ => ?_, fun _ => rfl⟩, by simp⟩
    · simp only [State.recordWrite_step]
      omega
    · exact fun zero => Nat.succ_ne_zero _ (failed.symm.trans (congrArg BitVec.toNat zero))
  · rw [ends]
    exact respond_inv_of_reset (enterReset_dev_of_shutdown inv.staged busy shutdown) rfl rfl

end Sys2Proof.Machine

namespace Sys2Proof

open Machine

/-- Settles O46: each of the four things a step can do (`step_next`) keeps the invariant. -/
theorem stepKeepsInv : Obligations.StepKeepsInv := by
  intro s t inv hstep
  obtain ⟨-, rfl⟩ | ⟨-, rfl⟩ | ⟨-, -, op, o, rest, gives, rfl⟩ | ⟨-, w, a, rest, scheduled, -, rfl⟩ :=
    step_next hstep
  · exact takeReset_inv s
  · exact inv
  · exact takeOutcome_inv (withPort_inv inv rest) gives
  · exact takeAnswer_inv inv scheduled

end Sys2Proof
end

section
/-! The decoder of register words by its formats (R70 to R74): which words each format takes and what it
reads from them. -/

namespace Sys2Proof

theorem decodeWord_of_freq0 {cfg : Config} {w : Word} (format : w.extractLsb' 14 2 = 0b01) :
    decodeWord cfg w = .ok (.freq0 (w.extractLsb' 0 14).toNat) := by
  simp [decodeWord, format]

theorem decodeWord_of_freq1 {cfg : Config} {w : Word} (format : w.extractLsb' 14 2 = 0b10) :
    decodeWord cfg w = .ok (.freq1 (w.extractLsb' 0 14).toNat) := by
  simp [decodeWord, format]

theorem decodeWord_of_phase {cfg : Config} {w : Word} (format : w.extractLsb' 14 2 = 0b11)
    (space : w.extractLsb' 12 2 = 0b00) : decodeWord cfg w = .ok (.phase (w.extractLsb' 0 12).toNat) := by
  simp [decodeWord, format, space]

/-- Decoding a register word, by cases of bits 15:14 (R70). -/
theorem decodeWord_cases (cfg : Config) (w : Word) :
    (w.extractLsb' 14 2 = 0b01 ∧ decodeWord cfg w = .ok (.freq0 (w.extractLsb' 0 14).toNat)) ∨
    (w.extractLsb' 14 2 = 0b10 ∧ decodeWord cfg w = .ok (.freq1 (w.extractLsb' 0 14).toNat)) ∨
    (w.extractLsb' 14 2 = 0b11 ∧ w.extractLsb' 12 2 = 0b00 ∧
      decodeWord cfg w = .ok (.phase (w.extractLsb' 0 12).toNat)) ∨
    (w.extractLsb' 14 2 = 0b11 ∧ w.extractLsb' 12 2 ≠ 0b00 ∧
      decodeWord cfg w = .error (.notThePhaseSpace w)) ∨
    (w.extractLsb' 14 2 = 0b00 ∧ ∃ i ∈ ctrlInstrs, wordOf cfg i = some w ∧ decodeWord cfg w = .ok i) ∨
    (w.extractLsb' 14 2 = 0b00 ∧ (∀ i ∈ ctrlInstrs, wordOf cfg i ≠ some w) ∧
      decodeWord cfg w = .error (.noControlWord w)) := by
  obtain format | format | format | format := opCode_exhaustive (w.extractLsb' 14 2)
  · cases found : ctrlInstrs.find? (fun i => decide (wordOf cfg i = some w)) with
    | some i =>
      obtain ⟨mem, word⟩ := ctrl_found found
      exact .inr (.inr (.inr (.inr (.inl ⟨format, i, mem, word, by simp [decodeWord, format, found]⟩))))
    | none =>
      refine .inr (.inr (.inr (.inr (.inr ⟨format, fun i mem => ?_, by simp [decodeWord, format, found]⟩))))
      simpa using List.find?_eq_none.mp found i mem
  · exact .inl ⟨format, decodeWord_of_freq0 format⟩
  · exact .inr (.inl ⟨format, decodeWord_of_freq1 format⟩)
  · by_cases space : w.extractLsb' 12 2 = 0b00
    · exact .inr (.inr (.inl ⟨format, space, decodeWord_of_phase format space⟩))
    · refine .inr (.inr (.inr (.inl ⟨format, space, ?_⟩)))
      rw [decodeWord, format, if_neg (by decide), if_neg (by decide), if_pos rfl, if_neg space]

theorem decodeWord_wf {cfg : Config} {w : Word} {i : Instr} (h : decodeWord cfg w = .ok i) :
    i.wf = true := by
  obtain ⟨-, dec⟩ | ⟨-, dec⟩ | ⟨-, -, dec⟩ | ⟨-, -, dec⟩ | ⟨-, j, mem, -, dec⟩ | ⟨-, -, dec⟩ :=
    decodeWord_cases cfg w
  all_goals cases dec.symm.trans h
  · exact decide_eq_true (BitVec.isLt _)
  · exact decide_eq_true (BitVec.isLt _)
  · have := (w.extractLsb' 0 12).isLt
    exact decide_eq_true (by omega)
  · exact (by decide : ∀ i ∈ ctrlInstrs, i.wf = true) i mem

theorem writesWord_encode {cfg : Config} {w : Word} {i : Instr} (h : Machine.WritesWord cfg i w) :
    encode cfg i = .word w := by
  obtain ⟨m, c, rfl, rfl⟩ | ⟨m, c, rfl, rfl⟩ | ⟨rfl, rfl⟩ | ⟨p, -, rfl, rfl⟩ | ⟨p, -, rfl, rfl⟩ |
    ⟨p, rfl, rfl⟩ := h
  all_goals rfl

/-- Settles O15: a decoded instruction hands over its word (`decodeWord_writesWord`), which is what
`encode` gives. -/
theorem encodeDecodedWord : Obligations.EncodeDecodedWord := fun _ _ _ h =>
  ⟨writesWord_encode (Machine.decodeWord_writesWord h), decodeWord_wf h⟩

end Sys2Proof
end

section
/-! Decoding what was encoded (R70 to R76): each format's prefix selects it and its payload reads back;
the CTRL words are found where they are told apart. -/

namespace Sys2Proof

open Machine

theorem decodeWord_freqRegisterWord_zero (cfg : Config) (p : Half) :
    decodeWord cfg (freqRegisterWord p 0 false) = .ok (.freq0 p.toNat) := by
  rw [decodeWord_of_freq0 (freqRegisterWord_prefix p 0 false), freqRegisterWord_payload]

theorem decodeWord_freqRegisterWord_one (cfg : Config) (p : Half) :
    decodeWord cfg (freqRegisterWord p 1 false) = .ok (.freq1 p.toNat) := by
  rw [decodeWord_of_freq1 (freqRegisterWord_prefix p 1 false), freqRegisterWord_payload]

/-- The bits of the prefix alone, from any position the payload does not reach. -/
theorem prefix_or_payload_above {n : Nat} (pre : Word) (p : BitVec n) {start : Nat} (h : n ≤ start)
    (len : Nat) : (pre ||| p.setWidth 16).extractLsb' start len = pre.extractLsb' start len := by
  apply BitVec.eq_of_getLsbD_eq
  intro k _
  simp [BitVec.getLsbD_of_ge p (start + k) (by omega)]

theorem decodeWord_phaseRegisterWord (cfg : Config) (p : Int) :
    decodeWord cfg (phaseRegisterWord p) = .ok (.phase (p % 4096)) := by
  have format : (phaseRegisterWord p).extractLsb' 14 2 = 0b11 :=
    prefix_or_payload_above 0xC000 (phaseField p) (by decide) 2
  have space : (phaseRegisterWord p).extractLsb' 12 2 = 0b00 :=
    prefix_or_payload_high 0xC000 (phaseField p) 2
  rw [decodeWord_of_phase format space, phaseRegisterWord_field, phaseField_toNat]

/-- Where the CTRL words are told apart, each is found from its word. -/
theorem decodeWord_of_mem_ctrlInstrs {cfg : Config} {i : Instr} {w : Word}
    (apart : unambiguous cfg = true) (mem : i ∈ ctrlInstrs) (word : wordOf cfg i = some w) :
    decodeWord cfg w = .ok i := by
  simp only [unambiguous, Bool.and_eq_true, List.all_eq_true, decide_eq_true_eq] at apart
  obtain ⟨formats, nodup⟩ := apart
  have format : w.extractLsb' 14 2 = 0b00 := by simpa [word] using formats i mem
  obtain ⟨other, -⟩ | ⟨other, -⟩ | ⟨other, -⟩ | ⟨other, -⟩ | ⟨-, j, memj, wordj, dec⟩ |
    ⟨-, none, -⟩ := decodeWord_cases cfg w
  · simp [format] at other
  · simp [format] at other
  · simp [format] at other
  · simp [format] at other
  · rw [dec, List.inj_on_of_nodup_map nodup memj mem (wordj.trans word.symm)]
  · exact absurd word (none i mem)

theorem controlWord_mem_ctrlInstrs (m : WaveformMode) (c : Chan) : .controlWord m c ∈ ctrlInstrs := by
  rcases BitVec.eq_zero_or_eq_one c with rfl | rfl <;> cases m <;> decide

theorem resetQualifiedWord_mem_ctrlInstrs (m : WaveformMode) (c : Chan) :
    .resetQualifiedWord m c ∈ ctrlInstrs := by
  rcases BitVec.eq_zero_or_eq_one c with rfl | rfl <;> cases m <;> decide

/-- Every register word reads back from its word. -/
theorem decodeWord_wordOf {cfg : Config} {i : Instr} {w : Word} (apart : unambiguous cfg = true)
    (wf : i.wf = true) (word : wordOf cfg i = some w) : decodeWord cfg w = .ok i := by
  cases i with
  | controlWord m c => exact decodeWord_of_mem_ctrlInstrs apart (controlWord_mem_ctrlInstrs m c) word
  | resetQualifiedWord m c =>
    exact decodeWord_of_mem_ctrlInstrs apart (resetQualifiedWord_mem_ctrlInstrs m c) word
  | resetWord => exact decodeWord_of_mem_ctrlInstrs apart (by decide) word
  | freq0 p =>
    have fits : p < 2 ^ 14 := of_decide_eq_true wf
    rw [← Option.some.inj word, decodeWord_freqRegisterWord_zero, BitVec.toNat_ofNat,
      Nat.mod_eq_of_lt fits]
  | freq1 p =>
    have fits : p < 2 ^ 14 := of_decide_eq_true wf
    rw [← Option.some.inj word, decodeWord_freqRegisterWord_one, BitVec.toNat_ofNat,
      Nat.mod_eq_of_lt fits]
  | phase p =>
    have fits : 0 ≤ p ∧ p ≤ 4095 := of_decide_eq_true wf
    rw [← Option.some.inj word, decodeWord_phaseRegisterWord, Int.emod_eq_of_lt fits.1 (by omega)]
  | _ => cases word

/-- Settles O14: a command or a line reads back under every configuration, a register word by its
format. -/
theorem decodeEncodeRoundTrip : Obligations.DecodeEncodeRoundTrip := by
  intro cfg i apart wf
  cases encoded : encode cfg i with
  | port p => rw [decode_port, decodePort_encode encoded]
  | word w => exact decodeWord_wordOf apart wf ((encode_word_iff cfg i w).mp encoded)

/-- Settles O17, word by word. -/
theorem specWordsDecode : Obligations.SpecWordsDecode := by
  unfold Obligations.SpecWordsDecode
  decide

end Sys2Proof
end

section
/-! The set of words RES can emit (R74) under R6's values: the formats as ranges of numbers, and the
thirteen CTRL words. -/

namespace Sys2Proof

open Machine

theorem decodeWord_ok_iff {cfg : Config} {w : Word} :
    (∃ i, decodeWord cfg w = .ok i) ↔
      (w.extractLsb' 14 2 = 0b00 ∧ some w ∈ ctrlInstrs.map (wordOf cfg)) ∨
      w.extractLsb' 14 2 = 0b01 ∨ w.extractLsb' 14 2 = 0b10 ∨
      (w.extractLsb' 14 2 = 0b11 ∧ w.extractLsb' 12 2 = 0b00) := by
  rw [List.mem_map]
  obtain ⟨format, dec⟩ | ⟨format, dec⟩ | ⟨format, space, dec⟩ | ⟨format, space, dec⟩ |
    ⟨format, i, mem, word, dec⟩ | ⟨format, none, dec⟩ := decodeWord_cases cfg w
  · simp [dec, format]
  · simp [dec, format]
  · simp [dec, format, space]
  · rw [dec, format]
    simpa using space
  · simp only [dec, format, true_and]
    exact ⟨fun _ => .inl ⟨i, mem, word⟩, fun _ => ⟨i, rfl⟩⟩
  · simpa [dec, format] using none

theorem format_toNat (w : Word) : (w.extractLsb' 14 2).toNat = w.toNat / 2 ^ 14 := by
  rw [BitVec.extractLsb'_toNat, Nat.shiftRight_eq_div_pow]
  omega

theorem eq_format_iff {w : Word} {n : BitVec 2} :
    w.extractLsb' 14 2 = n ↔ w.toNat / 2 ^ 14 = n.toNat := by
  rw [← format_toNat, BitVec.toNat_inj]

theorem phase_space_iff {w : Word} :
    w.extractLsb' 14 2 = 0b11 ∧ w.extractLsb' 12 2 = 0b00 ↔ 0xC000 ≤ w.toNat ∧ w.toNat ≤ 0xCFFF := by
  rw [eq_format_iff, ← BitVec.toNat_inj, BitVec.extractLsb'_toNat, Nat.shiftRight_eq_div_pow]
  have := w.isLt
  simp only [BitVec.reduceToNat]
  omega

/-- The thirteen CTRL words of R74's list. -/
def listedCtrlWords : List Word :=
  [0x2000, 0x2002, 0x2028, 0x2800, 0x2802, 0x2828,
    0x2100, 0x2102, 0x2128, 0x2900, 0x2902, 0x2928, 0x0100]

theorem listedCtrlWords_format {w : Word} (h : w ∈ listedCtrlWords) : w.extractLsb' 14 2 = 0b00 := by
  revert w
  simp [listedCtrlWords]

theorem ctrlWords_of_tableValues {cfg : Config} (values : cfg.TableValues) :
    ctrlInstrs.map (wordOf cfg) = listedCtrlWords.map some := by
  obtain ⟨b28, fselect, resetBit, sine, triangle, square, resetWord⟩ := values
  simp [listedCtrlWords, ctrlInstrs, wordOf, controlWord, resetQualifiedWord, Machine.resetWord,
    modeBits, fselectBits, *]

/-- Settles O13: each format is a range, and R6's CTRL words lie in the format `00`. -/
theorem emittedWordSet : Obligations.EmittedWordSet := by
  intro cfg w values
  rw [decodeWord_ok_iff, ctrlWords_of_tableValues values,
    List.mem_map_of_injective (Option.some_injective _), and_iff_right_of_imp listedCtrlWords_format,
    phase_space_iff, eq_format_iff, eq_format_iff]
  have := w.isLt
  simp only [BitVec.reduceToNat]
  refine or_congr Iff.rfl (or_congr ?_ (or_congr_left ?_)) <;> omega

end Sys2Proof
end

section
/-! The CTRL words bit by bit (R71, R106, R108 to R110) under R6's values: the bits of each term, then of
their disjunction. -/

namespace Sys2Proof.Machine

variable {cfg : Config} (values : cfg.TableValues)
include values

theorem b28_getLsbD (k : Nat) : cfg.b28.getLsbD k = decide (k = 13) := by
  obtain ⟨b28, -⟩ := values
  rw [b28, show (0x2000 : Word) = BitVec.twoPow 16 13 from rfl, BitVec.getLsbD_twoPow]
  simp [eq_comm]

theorem resetBit_getLsbD (k : Nat) : cfg.resetBit.getLsbD k = decide (k = 8) := by
  obtain ⟨-, -, resetBit, -⟩ := values
  rw [resetBit, show (0x0100 : Word) = BitVec.twoPow 16 8 from rfl, BitVec.getLsbD_twoPow]
  simp [eq_comm]

theorem resetWord_getLsbD (k : Nat) : (resetWord cfg).getLsbD k = decide (k = 8) := by
  have same : cfg.resetWord = cfg.resetBit := by
    obtain ⟨-, -, resetBit, -, -, -, word⟩ := values
    rw [word, resetBit]
  rw [resetWord, same, resetBit_getLsbD values]

theorem fselectBits_getLsbD (ch : Chan) (k : Nat) :
    (fselectBits cfg ch).getLsbD k = decide (k = 11 ∧ ch = 1) := by
  obtain ⟨-, fselect, -⟩ := values
  by_cases one : ch = 1
  · rw [fselectBits, if_pos one, fselect, show (0x0800 : Word) = BitVec.twoPow 16 11 from rfl,
      BitVec.getLsbD_twoPow]
    simp [one, eq_comm]
  · rw [fselectBits, if_neg one, decide_eq_false fun h => one h.2]
    exact BitVec.getLsbD_zero

theorem modeBits_getLsbD (m : WaveformMode) (k : Nat) :
    (modeBits cfg m).getLsbD k = decide ((k = 5 ∨ k = 3) ∧ m = .square ∨ k = 1 ∧ m = .triangle) := by
  obtain ⟨-, -, -, sine, triangle, square, -⟩ := values
  cases m with
  | sine => simp [modeBits, sine]
  | triangle =>
    rw [modeBits, triangle, show (0x0002 : Word) = BitVec.twoPow 16 1 from rfl, BitVec.getLsbD_twoPow]
    simp [eq_comm]
  | square =>
    rw [modeBits, square, show (0x0028 : Word) = BitVec.twoPow 16 5 ||| BitVec.twoPow 16 3 from rfl,
      BitVec.getLsbD_or, BitVec.getLsbD_twoPow, BitVec.getLsbD_twoPow]
    simp [eq_comm]

theorem controlWord_getLsbD (m : WaveformMode) (ch : Chan) (k : Nat) :
    (controlWord cfg m ch).getLsbD k =
      decide (k = 13 ∨ (k = 11 ∧ ch = 1) ∨ ((k = 5 ∨ k = 3) ∧ m = .square) ∨ (k = 1 ∧ m = .triangle)) := by
  rw [controlWord, BitVec.getLsbD_or, BitVec.getLsbD_or, b28_getLsbD values, modeBits_getLsbD values,
    fselectBits_getLsbD values, ← Bool.decide_or, ← Bool.decide_or]
  exact decide_eq_decide.mpr (by tauto)

theorem resetQualifiedWord_getLsbD (m : WaveformMode) (ch : Chan) (k : Nat) :
    (resetQualifiedWord cfg m ch).getLsbD k =
      decide (k = 13 ∨ k = 8 ∨ (k = 11 ∧ ch = 1) ∨ ((k = 5 ∨ k = 3) ∧ m = .square) ∨
        (k = 1 ∧ m = .triangle)) := by
  rw [resetQualifiedWord, BitVec.getLsbD_or, resetBit_getLsbD values, controlWord_getLsbD values,
    ← Bool.decide_or]
  exact decide_eq_decide.mpr or_left_comm

end Sys2Proof.Machine

namespace Sys2Proof

/-- Settles O12: the bits of the three kinds of CTRL word. -/
theorem ctrlWordBits : Obligations.CtrlWordBits := fun _ m ch k values =>
  ⟨Machine.controlWord_getLsbD values m ch k, Machine.resetQualifiedWord_getLsbD values m ch k,
    Machine.resetWord_getLsbD values k⟩

end Sys2Proof
end

section
/-! The tie rules as rounding to a nearest integer (R10): that alone makes them monotone and exact on
integers, whichever neighbour a tie takes. -/

namespace Sys2Proof.Machine

theorem roundP_nearest (r : Rounding) (x : Rat) : |(roundP r x : Rat) - x| ≤ 1 / 2 := by
  rw [abs_le]
  cases r with
  | halfEven =>
    have floor := eq_floor_add_frac x
    have nonneg := frac_nonneg x
    have lt_one := frac_lt_one x
    change -(1 / 2) ≤ (roundHalfEven x : Rat) - x ∧ (roundHalfEven x : Rat) - x ≤ 1 / 2
    obtain ⟨below, eq⟩ | ⟨above, eq⟩ | ⟨tie, -, eq | eq⟩ := roundHalfEven_cases x
    all_goals
      rw [eq]
      push_cast
      constructor <;> linarith
  | halfUp =>
    have le := floor_le_self (x + 1 / 2)
    have lt := lt_floor_add_one (x + 1 / 2)
    change -(1 / 2) ≤ ((x + 1 / 2).floor : Rat) - x ∧ ((x + 1 / 2).floor : Rat) - x ≤ 1 / 2
    constructor <;> linarith

theorem roundP_le (r : Rounding) (x : Rat) : (roundP r x : Rat) ≤ x + 1 / 2 := by
  linarith [(abs_le.mp (roundP_nearest r x)).2]

theorem le_roundP (r : Rounding) (x : Rat) : x - 1 / 2 ≤ roundP r x := by
  linarith [(abs_le.mp (roundP_nearest r x)).1]

/-- Two values rounded the wrong way round would both be ties at the same point. -/
theorem roundP_mono (r : Rounding) {x y : Rat} (h : x ≤ y) : roundP r x ≤ roundP r y := by
  by_contra lt
  have apart : (roundP r y : Rat) + 1 ≤ roundP r x := by exact_mod_cast not_le.mp lt
  have same : x = y := le_antisymm h (by linarith [roundP_le r x, le_roundP r y])
  exact lt (same ▸ le_rfl)

/-- The integer within less than one half is the rounded value. -/
theorem roundP_eq_of_near (r : Rounding) {x : Rat} {n : Int} (near : |(n : Rat) - x| < 1 / 2) :
    roundP r x = n := by
  obtain ⟨above, below⟩ := abs_lt.mp near
  have lower : (n : Rat) < (roundP r x : Rat) + 1 := by linarith [le_roundP r x]
  have upper : (roundP r x : Rat) < n + 1 := by linarith [roundP_le r x]
  exact le_antisymm (Int.lt_add_one_iff.mp (by exact_mod_cast upper))
    (Int.lt_add_one_iff.mp (by exact_mod_cast lower))

theorem roundP_intCast (r : Rounding) (n : Int) : roundP r n = n := roundP_eq_of_near r (by simp)

theorem roundP_nonneg (r : Rounding) {x : Rat} (h : 0 ≤ x) : 0 ≤ roundP r x := by
  simpa using roundP_mono r h

theorem clampTuningWord_mono {a b : Int} (h : a ≤ b) :
    (clampTuningWord a).toNat ≤ (clampTuningWord b).toNat := by
  have := clampTuningWord_toNat a
  have := clampTuningWord_toNat b
  omega

theorem clampTuningWord_toNat_of_fits {raw : Int} (nonneg : 0 ≤ raw) (fits : raw ≤ 2 ^ 28 - 1) :
    ((clampTuningWord raw).toNat : Int) = raw := by
  rw [clampTuningWord_toNat, max_eq_left nonneg, min_eq_left fits]

theorem tuningWord_of_twRaw {r : Rounding} {f clk : Rat} {raw : Int} (h : twRaw r f clk = .ok raw) :
    tuningWord r f clk = .ok (clampTuningWord raw) := by
  rw [tuningWord, h]

end Sys2Proof.Machine

namespace Sys2Proof

open Machine

/-- Settles O2: by the cases of `frac` for half-to-even, by the floor of `x + 1/2` for half-up. -/
theorem roundingIsNearest : Obligations.RoundingIsNearest := roundP_nearest

/-- Settles O4: the quotient, the rounding and the clamp are each monotone. -/
theorem tuningWordMonotone : Obligations.TuningWordMonotone := by
  intro r clk f g pos le
  have quotient : f * 2 ^ 28 / clk ≤ g * 2 ^ 28 / clk := by gcongr
  exact ⟨_, _, tuningWord_of_pos pos, tuningWord_of_pos pos,
    clampTuningWord_mono (roundP_mono r quotient)⟩

/-- Settles O7: the quotient is the integer `2^27`, which no tie rule moves. -/
theorem nyquistTuningWord : Obligations.NyquistTuningWord := by
  intro r clk pos
  have quotient : clk / 2 * 2 ^ 28 / clk = ((2 ^ 27 : Int) : Rat) := by
    push_cast
    field_simp
    norm_num
  constructor
  · rw [tuningWord_of_pos pos, quotient, roundP_intCast]
    rfl
  · decide

/-- Settles O8: the error is that of the rounding, scaled by one step of the chip. -/
theorem quantizationErrorBound : Obligations.QuantizationErrorBound := by
  intro r f clk raw pos freq given fits
  obtain rfl : roundP r (f * 2 ^ 28 / clk) = raw := Except.ok.inj ((twRaw_of_pos pos).symm.trans given)
  have exact_word : ((clampTuningWord (roundP r (f * 2 ^ 28 / clk))).toNat : Rat) =
      roundP r (f * 2 ^ 28 / clk) := by
    exact_mod_cast clampTuningWord_toNat_of_fits (roundP_nonneg r (by positivity)) fits
  have scaled : actualFrequency (clampTuningWord (roundP r (f * 2 ^ 28 / clk))) clk - f =
      (roundP r (f * 2 ^ 28 / clk) - f * 2 ^ 28 / clk) * (clk / 2 ^ 28) := by
    rw [actualFrequency, exact_word]
    field_simp
  calc |actualFrequency (clampTuningWord (roundP r (f * 2 ^ 28 / clk))) clk - f|
      = |(roundP r (f * 2 ^ 28 / clk) : Rat) - f * 2 ^ 28 / clk| * (clk / 2 ^ 28) := by
        rw [scaled, abs_mul, abs_of_pos (div_pos pos (by norm_num))]
    _ ≤ 1 / 2 * (clk / 2 ^ 28) := by
        gcongr
        exact roundP_nearest r _
    _ = clk / 2 ^ 29 := by ring

/-- Settles O9: below half a step 0 is the nearest integer; the two ties are where the rules are
evaluated. -/
theorem tiesAtBothEndsOfTheRange : Obligations.TiesAtBothEndsOfTheRange := by
  intro f clk pos
  refine ⟨fun freq below r => ?_, fun tie => ⟨?_, ?_⟩, fun tie r => ?_⟩
  · have quotient : 0 < f * 2 ^ 28 / clk := by positivity
    have near : |((0 : Int) : Rat) - f * 2 ^ 28 / clk| < 1 / 2 := by
      rw [Int.cast_zero, zero_sub, abs_neg, abs_of_pos quotient]
      exact below
    rw [tuningWord_of_pos pos, roundP_eq_of_near r near]
    rfl
  · rw [tuningWord_of_pos pos, tie, show roundP .halfEven (1 / 2) = 0 by decide +kernel]
    rfl
  · rw [tuningWord_of_pos pos, tie, show roundP .halfUp (1 / 2) = 1 by decide +kernel]
    rfl
  · rw [twRaw_of_pos pos, tie]
    cases r with
    | halfEven => rw [show roundP .halfEven (2 ^ 28 - 1 / 2) = 2 ^ 28 by decide +kernel]
    | halfUp => rw [show roundP .halfUp (2 ^ 28 - 1 / 2) = 2 ^ 28 by decide +kernel]

end Sys2Proof
end

section
/-! The two halves side by side (R75, R104). -/

namespace Sys2Proof.Machine

/-- Reassembling is concatenation. -/
theorem reassemble_eq_append (l m : Half) : reassemble l m = m ++ l := by
  apply BitVec.eq_of_getLsbD_eq
  intro k hk
  refine Eq.trans ?_ BitVec.getLsbD_append.symm
  by_cases low : k < 14
  · simp [reassemble, low, hk]
  · simp [reassemble, low, hk, BitVec.getLsbD_of_ge l k (not_lt.mp low)]

end Sys2Proof.Machine

namespace Sys2Proof

open Machine

/-- Settles O6: the halves of a concatenation are its parts, and a word is its halves side by side. -/
theorem splitReassembles : Obligations.SplitReassembles := by
  constructor
  · intro w
    calc reassemble (lsb14 w) (msb14 w)
        = msb14 w ++ lsb14 w := reassemble_eq_append _ _
      _ = w.extractLsb' 0 28 := BitVec.extractLsb'_append_extractLsb'_eq_extractLsb' rfl
      _ = w := BitVec.extractLsb'_eq_self
  · intro l m
    rw [reassemble_eq_append]
    exact Prod.ext BitVec.extractLsb'_append_eq_right BitVec.extractLsb'_append_eq_left

end Sys2Proof
end

section
/-! The rules where a command runs (R132 to R135), and what each stages. -/

namespace Sys2Proof.Machine

theorem initRule_run {s : State} {clk : Rat} (state : s.ctl ≠ .ready) (pos : 0 < clk) :
    initRule s clk = .run (initWords s.cfg) (initPend clk) := by
  simp [initRule, state, clockAdmitted, pos]

theorem setModeRule_run {s : State} {code : BitVec 2} {m : WaveformMode} (ready : s.ctl = .ready)
    (mode : modeOfCode code = some m) :
    setModeRule s code = .run (setModeWords s m) (setModePend s m) := by
  simp [setModeRule, ready, mode]

theorem shutdownRule_run {s : State} (ready : s.ctl = .ready) :
    shutdownRule s = .run [resetWord s.cfg] shutdownPend := by
  simp [shutdownRule, ready]

theorem setFreqRule_run {s : State} {f clk : Rat} {c : Chan} {p raw : Int} (ready : s.ctl = .ready)
    (clock : s.clock = some clk) (pos : 0 < f) (given : twRaw s.cfg.round f clk = .ok raw)
    (fits : raw ≤ maxTuningWord) (low : 0 ≤ p) (high : p ≤ 4095) :
    setFreqRule s f c p =
      .ok (.run (setFreqWords s.cfg s.dev.mode c (clampTuningWord raw) p) (setFreqPend s f c p)) := by
  simp [setFreqRule, ready, freqPositive, pos, clock, given, rawFits, fits, phaseAdmitted, low, high]

theorem setFreqRule_outOfRange_of_nonpos {s : State} {f : Rat} {c : Chan} {p : Int}
    (ready : s.ctl = .ready) (nonpos : f ≤ 0) :
    setFreqRule s f c p = .ok (.reject .outOfRange) := by
  simp [setFreqRule, ready, freqPositive, nonpos]

theorem setFreqRule_fault {s : State} {f : Rat} {c : Chan} {p : Int} (ready : s.ctl = .ready)
    (pos : 0 < f) (noClock : ∀ clk, s.clock = some clk → clk ≤ 0) :
    setFreqRule s f c p = .error .clockOutsideDomain := by
  cases clock : s.clock with
  | none => simp [setFreqRule, ready, freqPositive, pos, clock]
  | some clk => simp [setFreqRule, ready, freqPositive, pos, clock, twRaw_of_not_pos (noClock clk clock)]

/-- An accepted command that runs is staged (R131). -/
theorem acceptCommand_run {op : Op} {ws : List Word} {p : Pend} {rest : List PortItem} {s : State}
    (idle : s.seq = .idle) : acceptCommand op (.ok (.run ws p)) rest s =
      .next ((s.withPort rest).startSequence op ws p) := by
  rw [acceptCommand_idle idle, takeOutcome_run]

theorem modeOfCode_eq_some_iff (code : BitVec 2) (m : WaveformMode) :
    modeOfCode code = some m ↔ modeCode m = code := by
  obtain rfl | rfl | rfl | rfl := opCode_exhaustive code <;> cases m <;> decide

/-- A waveform line is SET_MODE of the mode it names, with its SETFREQ presented next (R88). -/
theorem exec_of_lineNames {f : Rat} {i : Instr} {m : WaveformMode} (line : LineNames f i m) (s : State) :
    exec i s =
      acceptCommand .setMode (.ok (setModeRule s (modeCode m))) (lineSetFreq f :: s.port.tail) s := by
  obtain ⟨rfl, rfl⟩ | ⟨rfl, rfl⟩ | ⟨rfl, rfl⟩ := line
  · exact exec_sine f s
  · exact exec_triangle f s
  · exact exec_square f s

/-- SHUTDOWN and the two lines that stand for it (R89). -/
theorem exec_eq_shutdown {i : Instr} (h : i = .shutdown ∨ i = .exit ∨ i = .quit) (s : State) :
    exec i s = acceptCommand .shutdown (.ok (shutdownRule s)) s.port.tail s := by
  obtain rfl | rfl | rfl := h
  · exact exec_shutdown s
  · exact exec_exit s
  · exact exec_quit s

/-- A positive frequency has no negative raw tuning word. -/
theorem raw_nonneg {r : Rounding} {f clk : Rat} {raw : Int} (pos : 0 < f)
    (given : twRaw r f clk = .ok raw) : 0 ≤ raw := by
  by_cases clock : 0 < clk
  · rw [← Except.ok.inj ((twRaw_of_pos clock).symm.trans given)]
    exact roundP_nonneg r (by positivity)
  · cases (twRaw_of_not_pos (not_lt.mp clock)).symm.trans given

theorem DeviceState.setChannel_eq (d : DeviceState) (c : Chan) (f : Rat) (p : PhaseWord) :
    d.setChannel c f p =
      { mode := d.mode
        chan := c
        freq0 := if c = 0 then f else d.freq0
        freq1 := if c = 1 then f else d.freq1
        phase0 := if c = 0 then p else d.phase0
        phase1 := if c = 1 then p else d.phase1 } := by
  rcases BitVec.eq_zero_or_eq_one c with rfl | rfl <;> rfl

end Sys2Proof.Machine

namespace Sys2Proof

open Machine

/-- Settles O22: INIT's rule runs, and its outcome is staged. -/
theorem initStages : Obligations.InitStages := by
  intro s clk idle state pos
  rw [exec_init, initRule_run state pos, acceptCommand_run idle]
  rfl

/-- Settles O24: SET_FREQ's rule runs; the clamp does nothing to a raw word of 0 to `2^28 - 1`. -/
theorem setFreqStages : Obligations.SetFreqStages := by
  intro s f clk c p raw idle ready clock pos given fits low high
  refine ⟨clampTuningWord raw, tuningWord_of_twRaw given,
    clampTuningWord_toNat_of_fits (raw_nonneg pos given) fits, ?_⟩
  rw [exec_setFreq, setFreqRule_run ready clock pos given fits low high, acceptCommand_run idle,
    setFreqPend, DeviceState.setChannel_eq]
  rfl

/-- Settles O26: SET_MODE's rule runs for a code that names a mode. -/
theorem setModeStages : Obligations.SetModeStages := by
  intro s code m idle ready names
  have mode : modeOfCode code = some m := by
    obtain ⟨rfl, rfl⟩ | ⟨rfl, rfl⟩ | ⟨rfl, rfl⟩ := names <;> rfl
  rw [exec_setMode, setModeRule_run ready mode, acceptCommand_run idle]
  rfl

/-- Settles O28: the two cases of SHUTDOWN's rule. -/
theorem shutdownStagesOrLogs : Obligations.ShutdownStagesOrLogs := by
  intro s i idle names
  rw [exec_eq_shutdown names]
  constructor
  · intro ready
    rw [shutdownRule_run ready, acceptCommand_run idle]
    rfl
  · intro state
    rw [shutdownRule_of_not_ready state, acceptCommand_idle idle, takeOutcome_doneNoWrite]
    simp [endedAtOnce, State.respond, State.emit, State.withPort, idle]

/-- Settles O30: a line is the acceptance of a SET_MODE, with the SETFREQ left on the stream. -/
theorem waveformLinesExpand : Obligations.WaveformLinesExpand := by
  intro s f i m idle line
  rw [exec_of_lineNames line]
  constructor
  · intro ready
    rw [setModeRule_run ready (modeOfCode_modeCode m), acceptCommand_run idle]
    rfl
  · intro state
    rw [setModeRule_protocolStateError_iff.mpr state, acceptCommand_idle idle, takeOutcome_reject]
    simp [endedAtOnce, State.respond, State.withPort, idle, ErrorKind.status, lineSetFreq]

/-- Settles O33: each clause is a case of SET_FREQ's or INIT's rule. -/
theorem firstErrorWins : Obligations.FirstErrorWins := by
  intro s f c p idle
  rw [exec_setFreq, exec_init]
  refine ⟨fun state => ?state, fun ready nonpos => ?sign, fun ready pos noClock => ?clock,
    fun ready => ?init⟩
  case state =>
    rw [setFreqRule_protocolStateError_iff.mpr state]
    exact acceptCommand_reject idle
  case sign =>
    rw [setFreqRule_outOfRange_of_nonpos ready nonpos]
    exact acceptCommand_reject idle
  case clock =>
    rw [setFreqRule_fault ready pos noClock]
    simp [acceptCommand, idle]
  case init =>
    rw [initRule_protocolStateError_iff.mpr ready]
    exact acceptCommand_reject idle

end Sys2Proof
end

section
/-! What a command or a line is, said once: the acceptance of one of the four commands (R88, R89, R131). -/

namespace Sys2Proof.Machine

/-- The instruction's meaning in `s` is the acceptance of the command `op`: what its rule may give, when
it may fault, which instructions stand for SHUTDOWN, and what stays on the host's stream. -/
structure Accepts (s : State) (i : Instr) (op : Op) (o : Except Fault AcceptOutcome)
    (rest : List PortItem) : Prop where
  exec_eq : exec i s = acceptCommand op o rest s
  gives : ∀ a, o = .ok a → RuleGives s op a
  faults : ∀ e, o = .error e → s.ctl = .ready ∧ ∀ clk, s.clock = some clk → clk ≤ 0
  shutdown : op = .shutdown → i = .shutdown ∨ i = .exit ∨ i = .quit
  command : (∀ f m, ¬ LineNames f i m) → rest = s.port.tail
  line : ∀ f m, LineNames f i m → rest = lineSetFreq f :: s.port.tail

theorem setFreqRule_faults {s : State} {f : Rat} {c : Chan} {p : Int} {e : Fault}
    (h : setFreqRule s f c p = .error e) :
    s.ctl = .ready ∧ ∀ clk, s.clock = some clk → clk ≤ 0 := by
  obtain ⟨-, rule⟩ | ⟨-, -, rule⟩ | ⟨ready, -, noClock, -⟩ |
    ⟨-, -, clk, -, -, raw, -, ⟨-, rule⟩ | ⟨-, -, -, rule⟩⟩ := setFreqRule_cases s f c p
  · cases rule.symm.trans h
  · cases rule.symm.trans h
  · exact ⟨ready, noClock⟩
  · cases rule.symm.trans h
  · cases rule.symm.trans h

theorem lineNames_freq_unique {f f' : Rat} {i : Instr} {m m' : WaveformMode} (h : LineNames f i m)
    (h' : LineNames f' i m') : f = f' := by
  obtain ⟨rfl, -⟩ | ⟨rfl, -⟩ | ⟨rfl, -⟩ := h
  all_goals
    simp only [LineNames, Instr.sine.injEq, Instr.triangle.injEq, Instr.square.injEq, reduceCtorEq,
      false_and, or_false, false_or] at h'
    exact h'.1

theorem accepts_shutdown {i : Instr} (h : i = .shutdown ∨ i = .exit ∨ i = .quit) (s : State) :
    Accepts s i .shutdown (.ok (shutdownRule s)) s.port.tail where
  exec_eq := exec_eq_shutdown h s
  gives := fun _ ha => Except.ok.inj ha
  faults := fun _ he => nomatch he
  shutdown := fun _ => h
  command := fun _ => rfl
  line := fun f m line => by obtain rfl | rfl | rfl := h <;> simp [LineNames] at line

theorem accepts_line {f : Rat} {i : Instr} {m : WaveformMode} (h : LineNames f i m) (s : State) :
    Accepts s i .setMode (.ok (setModeRule s (modeCode m))) (lineSetFreq f :: s.port.tail) where
  exec_eq := exec_of_lineNames h s
  gives := fun _ ha => ⟨modeCode m, Except.ok.inj ha⟩
  faults := fun _ he => nomatch he
  shutdown := fun op => nomatch op
  command := fun none => absurd h (none f m)
  line := fun _ _ line => by rw [lineNames_freq_unique h line]

/-- Every command and every front-end line is the acceptance of a command. -/
theorem exists_accepts {i : Instr} (h : IsPortInstr i) (s : State) :
    ∃ op o rest, Accepts s i op o rest := by
  obtain ⟨clk, rfl⟩ | ⟨f, c, p, rfl⟩ | ⟨code, rfl⟩ | rfl | ⟨f, m, line⟩ | rfl | rfl := h
  · exact ⟨_, _, _, exec_init clk s, fun _ ha => ⟨clk, Except.ok.inj ha⟩,
      fun _ he => (nomatch he), (nomatch ·), fun _ => rfl, fun _ _ line => by simp [LineNames] at line⟩
  · exact ⟨_, _, _, exec_setFreq f c p s, fun _ ha => ⟨f, c, p, ha⟩,
      fun _ he => setFreqRule_faults he, (nomatch ·), fun _ => rfl,
      fun _ _ line => by simp [LineNames] at line⟩
  · exact ⟨_, _, _, exec_setMode code s, fun _ ha => ⟨code, Except.ok.inj ha⟩,
      fun _ he => (nomatch he), (nomatch ·), fun _ => rfl, fun _ _ line => by simp [LineNames] at line⟩
  · exact ⟨_, _, _, accepts_shutdown (.inl rfl) s⟩
  · exact ⟨_, _, _, accepts_line line s⟩
  · exact ⟨_, _, _, accepts_shutdown (.inr (.inl rfl)) s⟩
  · exact ⟨_, _, _, accepts_shutdown (.inr (.inr rfl)) s⟩

end Sys2Proof.Machine

namespace Sys2Proof

open Machine

/-- Settles O32: what an acceptance that ended at once with an error changed, and the stream it left. -/
theorem rejectionChangesNothingElse : Obligations.RejectionChangesNothingElse := by
  intro s t i port idle h ended notOk
  obtain ⟨op, o, rest, accepts⟩ := exists_accepts port s
  have rejected := acceptCommand_rejected idle (accepts.exec_eq ▸ h) ended notOk
  have stream : t.port = rest := by rw [rejected]
  rw [stream]
  exact ⟨rejected, accepts.command, accepts.line⟩

end Sys2Proof
end

section
/-! The write step by its answer (R138 to R142), and the instructions that hand over the word. -/

namespace Sys2Proof.Machine

theorem takeAnswer_ok_of_not_last {s : State} (notLast : s.step + 1 ≠ s.seqLen) :
    s.takeAnswer .ok = s.advance := by
  rw [State.takeAnswer, State.takeOk, if_neg notLast]

theorem takeAnswer_ok_of_last {s : State} (last : s.step + 1 = s.seqLen) (op : s.seqOp ≠ .shutdown) :
    s.takeAnswer .ok = s.advance.applyPend.respond .ok 0 none := by
  obtain ⟨-, notLast, -⟩ | ⟨-, -, -, commits⟩ | ⟨-, -, shutdown, -⟩ | ⟨_, err, -⟩ | ⟨_, err, -⟩ :=
    takeAnswer_cases s .ok
  · exact absurd last notLast
  · exact commits
  · exact absurd shutdown op
  · cases err
  · cases err

theorem takeAnswer_err {s : State} (c : TransportCause) (op : s.seqOp ≠ .shutdown) :
    s.takeAnswer (.err c) = s.respond .transportError (s.step + 1) (some c) := by
  obtain ⟨ok, -⟩ | ⟨ok, -⟩ | ⟨ok, -⟩ | ⟨c', err, -, aborts⟩ | ⟨_, -, shutdown, -⟩ :=
    takeAnswer_cases s (.err c)
  · cases ok
  · cases ok
  · cases ok
  · cases err
    exact aborts
  · exact absurd shutdown op

/-- No other word than the scheduled one is handed over (R138). -/
theorem writeStep_of_not_scheduled {w : Word} {s : State} (h : s.scheduledWord ≠ some w) :
    writeStep w s = .next s := if_neg h

/-- An instruction that hands over the scheduled word takes the answer to it. -/
theorem exec_word_answered {s : State} {i : Instr} {w : Word} {a : Answer} {rest : List Answer}
    (writes : WritesWord s.cfg i w) (busy : s.seq = .busy)
    (word : s.seqWords.get s.step.toNat = some w) (answered : s.answers = a :: rest) :
    exec i s = .next ((s.recordWrite w a rest).takeAnswer a) := by
  rw [exec_eq_writeStep writes]
  exact writeStep_answer ((scheduledWord_of_busy busy).trans word) answered

/-- Acceptance writes nothing of the committed state, nothing of the configuration and nothing to the
transport (R131). -/
theorem takeOutcome_frame (s : State) (op : Op) (o : AcceptOutcome) :
    (s.takeOutcome op o).ctl = s.ctl ∧ (s.takeOutcome op o).dev = s.dev ∧
      (s.takeOutcome op o).clock = s.clock ∧ (s.takeOutcome op o).cfg = s.cfg ∧
      (s.takeOutcome op o).trace = s.trace ∧ (s.takeOutcome op o).answers = s.answers := by
  cases o <;> exact ⟨rfl, rfl, rfl, rfl, rfl, rfl⟩

end Sys2Proof.Machine

namespace Sys2Proof

open Machine

/-- Settles O34: the answer `OK` to a word that is not the last moves the index. -/
theorem wordWriteAdvances : Obligations.WordWriteAdvances := by
  intro s i w rest writes busy word answered notLast
  rw [exec_word_answered writes busy word answered,
    takeAnswer_ok_of_not_last (s := s.recordWrite w .ok rest) notLast]
  rfl

/-- Settles O35: the last `OK` commits; an acceptance, an earlier `OK` and an `ERR` leave the committed
state. -/
theorem commitOnLastOk : Obligations.CommitOnLastOk := by
  constructor
  · intro s i w rest writes busy word answered last op
    rw [exec_word_answered writes busy word answered,
      takeAnswer_ok_of_last (s := s.recordWrite w .ok rest) last op]
    rfl
  · intro s t i notShutdown h changed
    obtain rfl | ⟨-, op, o, rest, -, rfl⟩ | ⟨w, a, rest, scheduled, answered, rfl⟩ := exec_next h
    · simp at changed
    · obtain ⟨ctl, dev, clock, -⟩ := takeOutcome_frame (s.withPort rest) op o
      simp [ctl, dev, clock] at changed
    · have busy := scheduledWord_busy scheduled
      have op : s.seqOp ≠ .shutdown := notShutdown.resolve_left (by simp [busy])
      obtain ⟨-, -, kept⟩ | ⟨rfl, last, -, commits⟩ | ⟨-, -, shutdown, -⟩ | ⟨c, -, -, kept⟩ |
        ⟨c, -, shutdown, -⟩ := takeAnswer_cases (s.recordWrite w a rest) a
      · simp [kept] at changed
      · rw [commits]
        exact ⟨busy, last, answered, rfl, rfl, rfl⟩
      · exact absurd shutdown op
      · simp [kept] at changed
      · exact absurd shutdown op

/-- Settles O36: the answer `ERR` aborts. -/
theorem abortOnTransportError : Obligations.AbortOnTransportError := by
  intro s i w c rest writes busy word answered op
  rw [exec_word_answered writes busy word answered,
    takeAnswer_err (s := s.recordWrite w (.err c) rest) c op]
  rfl

/-- Settles O38: what holds the write step, and the payloads FREQ0 and FREQ1 refuse. -/
theorem wordsHeldOrRefused : Obligations.WordsHeldOrRefused := by
  constructor
  · intro s i w writes
    rw [exec_eq_writeStep writes]
    refine ⟨writeStep_wait, fun idle => writeStep_of_not_scheduled ?_,
      fun other => writeStep_of_not_scheduled fun scheduled => other ?_⟩
    · exact fun scheduled => nomatch idle.symm.trans (scheduledWord_busy scheduled)
    · rwa [scheduledWord_of_busy (scheduledWord_busy scheduled)] at scheduled
  · intro s n wide
    rw [exec_freq0, exec_freq1, checkedFreqRegisterWord_refuses false (.inl wide),
      checkedFreqRegisterWord_refuses false (.inl wide)]
    exact ⟨rfl, rfl⟩

end Sys2Proof
end

section
/-! The step by what stands at its place (R130, R138, R210). -/

namespace Sys2Proof.Machine

theorem step_reset {s : State} (reset : s.resetInput = true) : step s = .next s.takeReset := by
  rw [step, if_pos reset]

theorem step_idle_nothing {s : State} (noReset : s.resetInput = false) (idle : s.seq = .idle)
    (nothing : s.port = []) : step s = .next s := by
  simp [step, noReset, fetch, idle, nothing, stepNothing]

theorem step_idle_item {s : State} {item : PortItem} {items : List PortItem}
    (noReset : s.resetInput = false) (idle : s.seq = .idle) (presented : s.port = item :: items) :
    step s = exec (decodePort item) s := by
  simp [step, noReset, fetch, idle, presented]

theorem step_busy_decoded {s : State} {w : Word} {i : Instr} (noReset : s.resetInput = false)
    (scheduled : s.scheduledWord = some w) (decoded : decodeWord s.cfg w = .ok i) :
    step s = exec i s := by
  rw [step_eq_writeStep noReset scheduled, exec_eq_writeStep (decodeWord_writesWord decoded)]

theorem step_busy_answered {s : State} {w : Word} {a : Answer} {rest : List Answer}
    (noReset : s.resetInput = false) (scheduled : s.scheduledWord = some w)
    (answered : s.answers = a :: rest) :
    step s = .next ((s.recordWrite w a rest).takeAnswer a) := by
  rw [step_eq_writeStep noReset scheduled, writeStep_answer scheduled answered]

end Sys2Proof.Machine

namespace Sys2Proof

open Machine

/-- Settles O18: the step while `seq = IDLE`, and the step of a scheduled word, whether it decodes or
not. -/
theorem stepRunsTheDecodedInstruction : Obligations.StepRunsTheDecodedInstruction := by
  intro s noReset
  refine ⟨fun item items idle presented => step_idle_item noReset idle presented,
    fun w i busy word decoded => step_busy_decoded noReset ((scheduledWord_of_busy busy).trans word) decoded,
    fun w d busy word undecoded => ?_⟩
  have scheduled : s.scheduledWord = some w := (scheduledWord_of_busy busy).trans word
  refine ⟨step_undecodable noReset scheduled undecoded, fun a rest answered => ?_⟩
  have steps := step_busy_answered noReset scheduled answered
  obtain ⟨trace, answers, -⟩ := takeAnswer_frame (s.recordWrite w a rest) a
  exact ⟨steps, _, steps, trace, answers⟩

/-- Settles O56: nothing stands where the step looks. -/
theorem idleWaits : Obligations.IdleWaits := fun _ => step_idle_nothing

/-- Settles O21: the step is the reset event. -/
theorem resetInputConstructs : Obligations.ResetInputConstructs := fun _ reset =>
  ⟨_, step_reset reset, rfl, rfl, rfl, rfl, rfl, rfl, rfl, rfl, rfl, rfl, rfl, rfl, rfl, rfl, rfl⟩

/-- Settles O57: by construction. -/
theorem resetIsConstruction : Obligations.ResetIsConstruction :=
  ⟨rfl, fun _ => ⟨rfl, rfl, rfl, rfl, rfl, rfl, rfl⟩⟩

/-- Settles O45: the reset event leaves the constructed state as it is, and it establishes the
invariant. -/
theorem constructionSatisfiesInv : Obligations.ConstructionSatisfiesInv := fun cfg =>
  takeReset_inv (State.constructed cfg)

/-- Settles O55: each code by its value. -/
theorem registerCodes : Obligations.RegisterCodes := by
  refine ⟨rfl, rfl, rfl, rfl, rfl, rfl, fun st => ?status, rfl, rfl, rfl, fun c => ?ctl,
    modeOfCode_eq_some_iff, rfl⟩
  case status => cases st <;> decide
  case ctl => cases c <;> decide

end Sys2Proof
end

section
/-! From a state of the invariant a step goes on (R186): the port carries commands and lines only, and
none of them meets the encoder's fault; a running sequence has its word. -/

namespace Sys2Proof.Machine

theorem decodePort_isPortInstr (item : PortItem) : IsPortInstr (decodePort item) := by
  rcases item with r | (_ | _ | _)
  · obtain op | op | op | op := opCode_exhaustive r.op
    · rw [decodePort, decodeCommand_of_init op]
      exact .inl ⟨_, rfl⟩
    · rw [decodePort, decodeCommand_of_setFreq op]
      exact .inr (.inl ⟨_, _, _, rfl⟩)
    · rw [decodePort, decodeCommand_of_setMode op]
      exact .inr (.inr (.inl ⟨_, rfl⟩))
    · rw [decodePort, decodeCommand_of_shutdown op]
      exact .inr (.inr (.inr (.inl rfl)))
  · next m f =>
    refine .inr (.inr (.inr (.inr (.inl ⟨f, m, ?_⟩))))
    cases m with
    | sine => exact .inl ⟨rfl, rfl⟩
    | triangle => exact .inr (.inl ⟨rfl, rfl⟩)
    | square => exact .inr (.inr ⟨rfl, rfl⟩)
  · exact .inr (.inr (.inr (.inr (.inr (.inl rfl)))))
  · exact .inr (.inr (.inr (.inr (.inr (.inr rfl)))))

theorem Accepts.goesOn {s : State} {i : Instr} {op : Op} {o : Except Fault AcceptOutcome}
    {rest : List PortItem} (accepts : Accepts s i op o rest) (clock : ClockInv s) :
    goesOn (exec i s) := by
  rw [accepts.exec_eq]
  cases phase : s.seq with
  | busy =>
    rw [acceptCommand_busy phase]
    trivial
  | idle =>
    cases o with
    | ok a =>
      rw [acceptCommand_idle phase]
      trivial
    | error e =>
      obtain ⟨ready, noClock⟩ := accepts.faults e rfl
      obtain ⟨clk, latched, pos⟩ := clock.1 ready
      exact absurd pos (noClock clk latched).not_gt

theorem writeStep_goesOn (w : Word) (s : State) : goesOn (writeStep w s) := by
  obtain held | ⟨a, rest, -, -, written⟩ := writeStep_cases w s
  · rw [held]
    trivial
  · rw [written]
    trivial

end Sys2Proof.Machine

namespace Sys2Proof

open Machine

/-- Settles O47: the reset event, a wait, an acceptance and a write step each go on. -/
theorem stepFromInvGoesOn : Obligations.StepFromInvGoesOn := by
  intro s inv
  cases reset : s.resetInput with
  | true =>
    rw [step_reset reset]
    trivial
  | false =>
    cases phase : s.seq with
    | idle =>
      cases presented : s.port with
      | nil =>
        rw [step_idle_nothing reset phase presented]
        trivial
      | cons item items =>
        obtain ⟨op, o, rest, accepts⟩ := exists_accepts (decodePort_isPortInstr item) s
        rw [step_idle_item reset phase presented]
        exact accepts.goesOn inv.clock
    | busy =>
      obtain ⟨before, atMost, -⟩ := inv.sequence phase
      obtain ⟨w, scheduled⟩ := exists_scheduledWord phase (before.trans_le atMost)
      rw [step_eq_writeStep reset scheduled]
      exact writeStep_goesOn w s

end Sys2Proof
end

section
/-! What every step leaves and writes (R32 to R36, R138), each by what a step can do (`step_next`). -/

namespace Sys2Proof.Machine

/-- An answer ends the command, or it is an `OK` that moves the index. -/
theorem takeAnswer_ends_or_advances (s : State) (a : Answer) :
    (s.takeAnswer a).seq = .idle ∨ a = .ok ∧ s.takeAnswer a = s.advance := by
  obtain ⟨ok, -, run⟩ | ⟨-, -, -, ends⟩ | ⟨-, -, -, ends⟩ | ⟨c, -, -, ends⟩ | ⟨c, -, -, ends⟩ :=
    takeAnswer_cases s a
  · exact .inr ⟨ok, run⟩
  all_goals exact .inl (ends ▸ rfl)

/-- A command's end, as the response registers show it (R33, R84). -/
def Responded (s t : State) : Prop :=
  t.portReady = true ∧ t.responses = s.responses ++ [⟨t.status, t.errStep, t.errCause⟩] ∧
    t.status ≠ .none

/-- The response registers and the responses given so far are as they were. -/
def ResponsesKept (s t : State) : Prop :=
  t.responses = s.responses ∧ t.status = s.status ∧ t.errStep = s.errStep ∧ t.errCause = s.errCause

theorem respond_responded (s : State) {st : Status} (k : BitVec 3) (c : Option TransportCause)
    (some : st ≠ .none) : Responded s (s.respond st k c) := ⟨rfl, rfl, some⟩

theorem takeOutcome_responses (s : State) (op : Op) (o : AcceptOutcome) :
    ResponsesKept s (s.takeOutcome op o) ∨ Responded s (s.takeOutcome op o) := by
  cases o with
  | reject e => exact .inr (respond_responded s 0 none (errorKind_status_ne_none e))
  | doneNoWrite ev => exact .inr (respond_responded (s.emit ev) 0 none (by decide))
  | run ws p => exact .inl ⟨rfl, rfl, rfl, rfl⟩

theorem takeAnswer_responses (s : State) (a : Answer) :
    ResponsesKept s (s.takeAnswer a) ∨ Responded s (s.takeAnswer a) := by
  obtain ⟨-, -, run⟩ | ⟨-, -, -, ends⟩ | ⟨-, -, -, ends⟩ | ⟨c, -, -, ends⟩ | ⟨c, -, -, ends⟩ :=
    takeAnswer_cases s a
  · exact .inl (run ▸ ⟨rfl, rfl, rfl, rfl⟩)
  all_goals exact .inr (ends ▸ ⟨rfl, rfl, nofun⟩)

/-- Acceptance logs only what a rule that is done without a write gives. -/
theorem acceptCommand_log {op : Op} {o : Except Fault AcceptOutcome} {rest : List PortItem} {s t : State}
    (h : acceptCommand op o rest s = .next t) :
    t.log = s.log ∨ s.seq = .idle ∧ ∃ ev, o = .ok (.doneNoWrite ev) ∧ t.log = s.log ++ [ev] := by
  obtain ⟨-, rfl⟩ | ⟨idle, a, rfl, rfl⟩ := acceptCommand_next h
  · exact .inl rfl
  · cases a with
    | reject e => exact .inl rfl
    | doneNoWrite ev => exact .inr ⟨idle, ev, rfl, rfl⟩
    | run ws p => exact .inl rfl

/-- A command or a line that logs is SHUTDOWN or stands for it, outside `READY` (R135). -/
theorem Accepts.log {s t : State} {i : Instr} {op : Op} {o : Except Fault AcceptOutcome}
    {rest : List PortItem} (accepts : Accepts s i op o rest) (h : exec i s = .next t) :
    t.log = s.log ∨ s.seq = .idle ∧ s.ctl ≠ .ready ∧ t.log = s.log ++ [.protocolStateError] ∧
      (i = .shutdown ∨ i = .exit ∨ i = .quit) := by
  rw [accepts.exec_eq] at h
  obtain kept | ⟨idle, ev, rfl, logged⟩ := acceptCommand_log h
  · exact .inl kept
  · obtain ⟨isShutdown, state, rfl⟩ := ruleGives_doneNoWrite (accepts.gives _ rfl)
    exact .inr ⟨idle, state, logged, accepts.shutdown isShutdown⟩

/-- An answer logs only as the failed one of SHUTDOWN (R143). -/
theorem takeAnswer_log (s : State) (a : Answer) :
    (s.takeAnswer a).log = s.log ∨
    s.seqOp = .shutdown ∧ ∃ c, a = .err c ∧ (s.takeAnswer a).log = s.log ++ [.transportError 1 c] := by
  obtain ⟨-, -, run⟩ | ⟨-, -, -, ends⟩ | ⟨-, -, -, ends⟩ | ⟨c, -, -, ends⟩ | ⟨c, err, op, ends⟩ :=
    takeAnswer_cases s a
  · exact .inl (run ▸ rfl)
  · exact .inl (ends ▸ rfl)
  · exact .inl (ends ▸ rfl)
  · exact .inl (ends ▸ rfl)
  · exact .inr ⟨op, c, err, ends ▸ rfl⟩

end Sys2Proof.Machine

namespace Sys2Proof

open Machine

/-- Settles O48: the reset event, an acceptance and an answer all keep the configuration. -/
theorem configurationIsFixed : Obligations.ConfigurationIsFixed := by
  intro s t hstep
  obtain ⟨-, rfl⟩ | ⟨-, rfl⟩ | ⟨-, -, op, o, rest, -, rfl⟩ | ⟨-, w, a, rest, -, -, rfl⟩ :=
    step_next hstep
  · rfl
  · rfl
  · obtain ⟨-, -, -, cfg, -⟩ := takeOutcome_frame (s.withPort rest) op o
    exact cfg
  · obtain ⟨-, -, -, cfg, -⟩ := takeAnswer_frame (s.recordWrite w a rest) a
    exact cfg

/-- Settles O49: only the step that takes an answer writes to the trace, and it takes the scheduled
word's. -/
theorem traceGrowsByScheduledWord : Obligations.TraceGrowsByScheduledWord := by
  intro s t hstep
  obtain ⟨reset, rfl⟩ | ⟨-, rfl⟩ | ⟨-, idle, op, o, rest, -, rfl⟩ |
    ⟨-, w, a, rest, scheduled, answered, rfl⟩ := step_next hstep
  · exact .inl ⟨rfl, rfl, fun noReset => nomatch noReset.symm.trans reset⟩
  · exact .inl ⟨rfl, rfl, fun _ _ => rfl⟩
  · obtain ⟨-, -, -, -, trace, answers⟩ := takeOutcome_frame (s.withPort rest) op o
    exact .inl ⟨trace, answers, fun _ busy => nomatch idle.symm.trans busy⟩
  · have busy := scheduledWord_busy scheduled
    obtain ⟨trace, answers, -⟩ := takeAnswer_frame (s.recordWrite w a rest) a
    refine .inr ⟨busy, w, a, scheduledWord_of_busy busy ▸ scheduled, trace, answers ▸ answered, ?_⟩
    refine (takeAnswer_ends_or_advances (s.recordWrite w a rest) a).imp_right ?_
    rintro ⟨ok, run⟩
    rw [run]
    exact ⟨busy, ok, rfl, rfl, rfl, rfl, rfl⟩

/-- Settles O51: a step stages, waits or moves the index, or it ends a command. -/
theorem responsesWrittenAtCommandEnd : Obligations.ResponsesWrittenAtCommandEnd := by
  intro s t noReset hstep
  obtain ⟨reset, -⟩ | ⟨-, rfl⟩ | ⟨-, -, op, o, rest, -, rfl⟩ | ⟨-, w, a, rest, -, -, rfl⟩ :=
    step_next hstep
  · cases noReset.symm.trans reset
  · exact .inl ⟨rfl, rfl, rfl, rfl⟩
  · exact takeOutcome_responses (s.withPort rest) op o
  · exact takeAnswer_responses (s.recordWrite w a rest) a

/-- Settles O52: while `seq = IDLE` the presented item decides, while `seq = BUSY` the answer. -/
theorem onlyShutdownLogs : Obligations.OnlyShutdownLogs := by
  intro s t hstep
  cases phase : s.seq with
  | idle =>
    cases reset : s.resetInput with
    | true =>
      cases (step_reset reset).symm.trans hstep
      exact .inl rfl
    | false =>
      cases presented : s.port with
      | nil =>
        cases (step_idle_nothing reset phase presented).symm.trans hstep
        exact .inl rfl
      | cons item items =>
        obtain ⟨op, o, rest, accepts⟩ := exists_accepts (decodePort_isPortInstr item) s
        refine (accepts.log (step_idle_item reset phase presented ▸ hstep)).imp_right ?_
        rintro ⟨-, state, logged, names⟩
        exact .inl ⟨rfl, state, logged, item, items, rfl, names⟩
  | busy =>
    obtain ⟨-, rfl⟩ | ⟨-, rfl⟩ | ⟨-, idle, -⟩ | ⟨-, w, a, rest, -, answered, rfl⟩ := step_next hstep
    · exact .inl rfl
    · exact .inl rfl
    · cases phase.symm.trans idle
    · obtain ⟨-, answers, -⟩ := takeAnswer_frame (s.recordWrite w a rest) a
      refine (takeAnswer_log (s.recordWrite w a rest) a).imp_right ?_
      rintro ⟨op, c, rfl, logged⟩
      exact .inr ⟨rfl, op, c, answers ▸ answered, logged⟩

end Sys2Proof
end

section
/-! How the committed state changes (R21, R27, R141, R143): from a state of the invariant, only at the end
of a running command, and as that command staged it. -/

namespace Sys2Proof.Machine

/-- A step that ends a command of a running sequence with status `OK`. -/
def EndsOk (s t : State) (op : Op) : Prop := s.seq = .busy ∧ s.seqOp = op ∧ t.status = .ok

/-- All that becomes of `ctl` and `dev`: they are kept, or one of the four commands ends. -/
def CommittedBy (s t : State) : Prop :=
  (t.ctl = s.ctl ∧ t.dev = s.dev) ∨
  (EndsOk s t .init ∧ s.ctl ≠ .ready ∧ t.ctl = .ready ∧ t.dev = .defaults) ∨
  (EndsOk s t .setFreq ∧ t.ctl = s.ctl) ∨
  (EndsOk s t .setMode ∧ t.ctl = s.ctl ∧ t.dev.chan = s.dev.chan) ∨
  (EndsOk s t .shutdown ∧ s.ctl = .ready ∧ t.ctl = .reset ∧ t.dev = .defaults)

/-- The commit of what a rule staged. -/
theorem commit_committedBy {s t : State} {ws : List Word} (busy : s.seq = .busy)
    (gives : RuleGives s s.seqOp (.run ws s.pend)) (notShutdown : s.seqOp ≠ .shutdown)
    (ok : t.status = .ok) (ctl : t.ctl = s.pend.ctl) (dev : t.dev = s.pend.dev) : CommittedBy s t := by
  obtain ⟨op, state, clk, -, -, pend⟩ | ⟨op, ready, f, c, q, tw, -, -, pend⟩ | ⟨op, -, m, -, pend⟩ |
    ⟨op, -⟩ := ruleGives_run gives
  · exact .inr (.inl ⟨⟨busy, op, ok⟩, state, ctl.trans (pend ▸ rfl), dev.trans (pend ▸ rfl)⟩)
  · have stays : s.pend.ctl = s.ctl := by rw [pend, ready, setFreqPend]
    exact .inr (.inr (.inl ⟨⟨busy, op, ok⟩, ctl.trans stays⟩))
  · have stays : s.pend.ctl = s.ctl ∧ s.pend.dev.chan = s.dev.chan := by
      rw [pend, setModePend]
      exact ⟨rfl, rfl⟩
    exact .inr (.inr (.inr (.inl ⟨⟨busy, op, ok⟩, ctl.trans stays.1, dev ▸ stays.2⟩)))
  · exact absurd op notShutdown

/-- The end of SHUTDOWN, which ran in `READY` only. -/
theorem endShutdown_committedBy {s t : State} (staged : StagedInv s) (busy : s.seq = .busy)
    (op : s.seqOp = .shutdown) (ok : t.status = .ok) (ctl : t.ctl = .reset) (dev : t.dev = s.pend.dev) :
    CommittedBy s t := by
  obtain ⟨ws, gives, -⟩ := staged busy
  rw [op] at gives
  obtain ⟨other, -⟩ | ⟨other, -⟩ | ⟨other, -⟩ | ⟨-, ready, -, pend⟩ := ruleGives_run gives
  · cases other
  · cases other
  · cases other
  · exact .inr (.inr (.inr (.inr ⟨⟨busy, op, ok⟩, ready, ctl, dev.trans (pend ▸ rfl)⟩)))

theorem step_committedBy {s t : State} (inv : Inv s) (noReset : s.resetInput = false)
    (hstep : step s = .next t) : CommittedBy s t := by
  obtain ⟨reset, -⟩ | ⟨-, rfl⟩ | ⟨-, -, op, o, rest, -, rfl⟩ | ⟨-, w, a, rest, scheduled, -, rfl⟩ :=
    step_next hstep
  · cases noReset.symm.trans reset
  · exact .inl ⟨rfl, rfl⟩
  · obtain ⟨ctl, dev, -⟩ := takeOutcome_frame (s.withPort rest) op o
    exact .inl ⟨ctl, dev⟩
  · have busy := scheduledWord_busy scheduled
    obtain ⟨-, -, run⟩ | ⟨-, -, notShutdown, commits⟩ | ⟨-, -, op, ends⟩ | ⟨c, -, -, aborts⟩ |
      ⟨c, -, op, ends⟩ := takeAnswer_cases (s.recordWrite w a rest) a
    · rw [run]
      exact .inl ⟨rfl, rfl⟩
    · obtain ⟨ws, gives, -⟩ := inv.staged busy
      rw [commits]
      exact commit_committedBy busy gives notShutdown rfl rfl rfl
    · rw [ends]
      exact endShutdown_committedBy inv.staged busy op rfl rfl rfl
    · rw [aborts]
      exact .inl ⟨rfl, rfl⟩
    · rw [ends]
      exact endShutdown_committedBy inv.staged busy op rfl rfl rfl

end Sys2Proof.Machine

namespace Sys2Proof

open Machine

/-- Settles O53: INIT, SHUTDOWN and the reset event select channel 0, SET_MODE keeps the channel. -/
theorem onlySetFreqSelectsChannelOne : Obligations.OnlySetFreqSelectsChannelOne := by
  intro s t inv hstep zero one
  have changed : t.dev.chan ≠ 0 := by simp [one]
  cases reset : s.resetInput with
  | true =>
    cases (step_reset reset).symm.trans hstep
    exact absurd rfl changed
  | false =>
    obtain ⟨-, dev⟩ | ⟨-, -, -, dev⟩ | ⟨ends, -⟩ | ⟨-, -, chan⟩ | ⟨-, -, -, dev⟩ :=
      step_committedBy inv reset hstep
    · exact absurd (dev ▸ zero) changed
    · exact absurd (dev ▸ rfl) changed
    · exact ends
    · exact absurd (chan.trans zero) changed
    · exact absurd (dev ▸ rfl) changed

/-- Settles O54: INIT's commit and SHUTDOWN's end are the two that change `ctl`. -/
theorem controllerTransitions : Obligations.ControllerTransitions := by
  intro s t inv noReset hstep changed
  obtain ⟨ctl, -⟩ | ⟨⟨busy, op, ok⟩, state, ready, -⟩ | ⟨-, ctl⟩ | ⟨-, ctl, -⟩ |
    ⟨⟨busy, op, ok⟩, ready, reset, -⟩ := step_committedBy inv noReset hstep
  · exact absurd ctl changed
  · exact .inl ⟨state, ready, busy, op, ok⟩
  · exact absurd ctl changed
  · exact absurd ctl changed
  · exact .inr ⟨ready, reset, busy, op, ok⟩

end Sys2Proof
end

section
/-! Runs of several steps, and the states in between: the words of a sequence, each answered `OK` in
turn (R138, R139). -/

namespace Sys2Proof.Machine

theorem run_succ {s t : State} {k : Nat} (h : step s = .next t) :
    Host.Core.run core (k + 1) s = Host.Core.run core k t := by
  simp only [Host.Core.run, show core.step s = .next t from h]

theorem run_add {m n : Nat} {s t : State} (h : Host.Core.run core m s = .next t) :
    Host.Core.run core (m + n) s = Host.Core.run core n t := by
  induction m generalizing s with
  | zero =>
    obtain rfl : s = t := Host.Outcome.next.inj h
    rw [Nat.zero_add]
  | succ m ih =>
    rw [Nat.add_right_comm]
    cases hs : step s with
    | next u =>
      rw [run_succ hs] at h ⊢
      exact ih h
    | fault e => simp [Host.Core.run, show core.step s = .fault e from hs] at h
    | refused e => simp [Host.Core.run, show core.step s = .refused e from hs] at h

/-- The trace entry of a word answered `OK`. -/
def okEvent (cfg : Config) (w : Word) : WriteEvent := ⟨cfg.csId, w, .ok⟩

/-- `s` once a command was staged in it and its first `k` words were answered `OK`, with the answers still
to come. -/
def State.delivered (s : State) (op : Op) (ws : List Word) (p : Pend) (k : Nat) (answers : List Answer) :
    State :=
  { s.startSequence op ws p with
    step := BitVec.ofNat 3 k
    trace := s.trace ++ (ws.take k).map (okEvent s.cfg)
    answers := answers }

theorem delivered_zero (s : State) (op : Op) (ws : List Word) (p : Pend) :
    s.delivered op ws p 0 s.answers = s.startSequence op ws p := by
  simp [State.delivered, State.startSequence]

theorem SeqWords.load_get {v : SeqWords} {ws : List Word} {k : Nat} {w : Word} (len : ws.length ≤ 5)
    (word : ws[k]? = some w) : (v.load ws).get k = some w := by
  obtain ⟨inside, -⟩ := List.getElem?_eq_some_iff.mp word
  calc (v.load ws).get k
      = (v.load ws).toList[k]? := get_eq_toList _ _
    _ = ((v.load ws).toList.take ws.length)[k]? := (List.getElem?_take_of_lt inside).symm
    _ = some w := by rw [take_load v ws len, word]

section
variable {s : State} {op : Op} {ws : List Word} {p : Pend} {k : Nat} {w : Word}

theorem delivered_scheduledWord {answers : List Answer} (len : ws.length ≤ 5) (word : ws[k]? = some w) :
    (s.delivered op ws p k answers).scheduledWord = some w := by
  obtain ⟨inside, -⟩ := List.getElem?_eq_some_iff.mp word
  have index : (BitVec.ofNat 3 k).toNat = k := by
    rw [BitVec.toNat_ofNat]
    omega
  rw [scheduledWord_of_busy rfl]
  change (s.seqWords.load ws).get (BitVec.ofNat 3 k).toNat = some w
  rw [index]
  exact SeqWords.load_get len word

theorem ofNat_add_one_eq_iff (len : ws.length ≤ 5) (inside : k < ws.length) :
    BitVec.ofNat 3 k + 1 = BitVec.ofNat 3 ws.length ↔ k + 1 = ws.length := by
  rw [← BitVec.toNat_inj, BitVec.toNat_add, BitVec.toNat_ofNat, BitVec.toNat_ofNat]
  simp only [BitVec.reduceToNat]
  omega

theorem take_succ_map_okEvent (word : ws[k]? = some w) :
    (ws.take (k + 1)).map (okEvent s.cfg) =
      (ws.take k).map (okEvent s.cfg) ++ [⟨s.cfg.csId, w, .ok⟩] := by
  rw [List.take_add_one, word, List.map_append]
  rfl

/-- The step that takes the answer to the word `k`. -/
theorem step_delivered_answered {a : Answer} {rest : List Answer} (noReset : s.resetInput = false)
    (len : ws.length ≤ 5) (word : ws[k]? = some w) :
    step (s.delivered op ws p k (a :: rest)) =
      .next (((s.delivered op ws p k (a :: rest)).recordWrite w a rest).takeAnswer a) :=
  step_busy_answered (s := s.delivered op ws p k (a :: rest)) noReset (delivered_scheduledWord len word)
    rfl

/-- The answer `OK` to a word that is not the last. -/
theorem step_delivered {rest : List Answer} (noReset : s.resetInput = false) (len : ws.length ≤ 5)
    (word : ws[k]? = some w) (notLast : k + 1 ≠ ws.length) :
    step (s.delivered op ws p k (.ok :: rest)) = .next (s.delivered op ws p (k + 1) rest) := by
  obtain ⟨inside, -⟩ := List.getElem?_eq_some_iff.mp word
  rw [step_delivered_answered noReset len word, takeAnswer_ok_of_not_last
    (s := (s.delivered op ws p k (.ok :: rest)).recordWrite w .ok rest)
    ((ofNat_add_one_eq_iff len inside).not.mpr notLast)]
  simp [State.delivered, State.recordWrite, State.advance, take_succ_map_okEvent word,
    BitVec.ofNat_add]

theorem run_delivered {rest : List Answer} (noReset : s.resetInput = false) (len : ws.length ≤ 5)
    (inside : k < ws.length) :
    Host.Core.run core k (s.delivered op ws p 0 (List.replicate k .ok ++ rest)) =
      .next (s.delivered op ws p k rest) := by
  induction k generalizing rest with
  | zero => rfl
  | succ k ih =>
    rw [List.replicate_succ', List.append_assoc, run_add (ih (Nat.lt_of_succ_lt inside))]
    exact run_succ (step_delivered noReset len
      (List.getElem?_eq_getElem (Nat.lt_of_succ_lt inside)) inside.ne)

/-- A command from its acceptance to the answer to its word `k`, the words before it answered `OK`. -/
theorem run_command {s' : State} {a : Answer} {rest : List Answer}
    (accepted : step s' = .next (s.startSequence op ws p)) (noReset : s.resetInput = false)
    (len : ws.length ≤ 5) (word : ws[k]? = some w)
    (answers : s.answers = List.replicate k .ok ++ a :: rest) :
    Host.Core.run core (k + 2) s' =
      .next (((s.delivered op ws p k (a :: rest)).recordWrite w a rest).takeAnswer a) := by
  obtain ⟨inside, -⟩ := List.getElem?_eq_some_iff.mp word
  rw [run_succ accepted, ← delivered_zero, answers, run_add (run_delivered noReset len inside)]
  exact run_succ (step_delivered_answered noReset len word)

end

end Sys2Proof.Machine
end

section
/-! How a command ends (R141, R142): the commit after its last word, the abort at any of them. -/

namespace Sys2Proof.Machine

/-- `t` is `s` after the words `ws` were all answered `OK` and `p` was committed. -/
structure Committed (s : State) (ws : List Word) (p : Pend) (rest : List Answer) (t : State) : Prop where
  ctl : t.ctl = p.ctl
  dev : t.dev = p.dev
  clock : t.clock = p.clock
  status : t.status = .ok
  errStep : t.errStep = 0
  errCause : t.errCause = none
  seq : t.seq = .idle
  trace : t.trace = s.trace ++ ws.map (okEvent s.cfg)
  port : t.port = s.port
  answers : t.answers = rest
  log : t.log = s.log
  cfg : t.cfg = s.cfg
  resetInput : t.resetInput = s.resetInput

/-- `t` is `s` after the word `k` of `ws`, which is `w`, failed with `c` and the words before it were
answered `OK`. -/
structure Aborted (s : State) (ws : List Word) (k : Nat) (w : Word) (c : TransportCause)
    (rest : List Answer) (t : State) : Prop where
  ctl : t.ctl = s.ctl
  dev : t.dev = s.dev
  clock : t.clock = s.clock
  status : t.status = .transportError
  errStep : t.errStep = BitVec.ofNat 3 k + 1
  errCause : t.errCause = some c
  seq : t.seq = .idle
  trace : t.trace = s.trace ++ (ws.take k).map (okEvent s.cfg) ++ [⟨s.cfg.csId, w, .err c⟩]
  port : t.port = s.port
  answers : t.answers = rest
  log : t.log = s.log

variable {s s' : State} {op : Op} {ws : List Word} {p : Pend} {rest : List Answer}

theorem run_commits (accepted : step s' = .next (s.startSequence op ws p))
    (noReset : s.resetInput = false) (notShutdown : op ≠ .shutdown) (nonempty : ws ≠ [])
    (len : ws.length ≤ 5) (answers : s.answers = List.replicate ws.length .ok ++ rest) :
    ∃ t : State, Host.Core.run core (ws.length + 1) s' = .next t ∧ Committed s ws p rest t := by
  obtain ⟨k, length⟩ := Nat.exists_eq_succ_of_ne_zero (mt List.length_eq_zero_iff.mp nonempty)
  have inside : k < ws.length := by omega
  have word := List.getElem?_eq_getElem inside
  rw [length, List.replicate_succ', List.append_assoc, List.singleton_append] at answers
  have run := run_command accepted noReset len word answers
  rw [takeAnswer_ok_of_last (s := (s.delivered op ws p k (.ok :: rest)).recordWrite ws[k] .ok rest)
    ((ofNat_add_one_eq_iff len inside).mpr length.symm) notShutdown] at run
  rw [show ws.length + 1 = k + 2 by omega]
  refine ⟨_, run, rfl, rfl, rfl, rfl, rfl, rfl, rfl, ?_, rfl, rfl, rfl, rfl, rfl⟩
  calc s.trace ++ (ws.take k).map (okEvent s.cfg) ++ [⟨s.cfg.csId, ws[k], .ok⟩]
      = s.trace ++ (ws.take ws.length).map (okEvent s.cfg) := by
        rw [length, take_succ_map_okEvent word, List.append_assoc]
    _ = s.trace ++ ws.map (okEvent s.cfg) := by rw [List.take_length]

theorem run_aborts {k : Nat} {w : Word} {c : TransportCause}
    (accepted : step s' = .next (s.startSequence op ws p)) (noReset : s.resetInput = false)
    (notShutdown : op ≠ .shutdown) (len : ws.length ≤ 5) (word : ws[k]? = some w)
    (answers : s.answers = List.replicate k .ok ++ .err c :: rest) :
    ∃ t : State, Host.Core.run core (k + 2) s' = .next t ∧ Aborted s ws k w c rest t := by
  have run := run_command accepted noReset len word answers
  rw [takeAnswer_err (s := (s.delivered op ws p k (.err c :: rest)).recordWrite w (.err c) rest) c
    notShutdown] at run
  exact ⟨_, run, rfl, rfl, rfl, rfl, rfl, rfl, rfl, rfl, rfl, rfl, rfl⟩

end Sys2Proof.Machine
end

section
/-! The acceptance of each command presented in a state that admits it (R131 to R135, R88). -/

namespace Sys2Proof.Machine

variable {s : State} {r : CommandRecord} {items : List PortItem}

/-- A presented item whose meaning is the acceptance of a rule that runs is staged. -/
theorem step_accepts {item : PortItem} {op : Op} {ws : List Word} {p : Pend} {rest : List PortItem}
    (noReset : s.resetInput = false) (idle : s.seq = .idle) (presented : s.port = item :: items)
    (meaning : exec (decodePort item) s = acceptCommand op (.ok (.run ws p)) rest s) :
    step s = .next ((s.withPort rest).startSequence op ws p) := by
  rw [step_idle_item noReset idle presented, meaning, acceptCommand_run idle]

theorem step_accepts_init (noReset : s.resetInput = false) (idle : s.seq = .idle)
    (state : s.ctl ≠ .ready) (presented : s.port = .command r :: items) (op : r.op = 0b00)
    (pos : 0 < r.clockHz) : step s =
      .next ((s.withPort items).startSequence .init (initWords s.cfg) (initPend r.clockHz)) := by
  refine step_accepts noReset idle presented ?_
  rw [decodePort, decodeCommand_of_init op, exec_init, initRule_run state pos, presented]
  rfl

@[simp] theorem clampTuningWord_natCast_toNat (tw : TuningWord) :
    clampTuningWord (tw.toNat : Int) = tw := by
  have := clampTuningWord_toNat tw.toNat
  have := tw.isLt
  apply BitVec.eq_of_toNat_eq
  omega

theorem step_accepts_setFreq {clk : Rat} {tw : TuningWord} (noReset : s.resetInput = false)
    (idle : s.seq = .idle) (ready : s.ctl = .ready) (clock : s.clock = some clk)
    (presented : s.port = .command r :: items) (op : r.op = 0b01) (pos : 0 < r.freqHz)
    (given : twRaw s.cfg.round r.freqHz clk = .ok (tw.toNat : Int)) (low : 0 ≤ r.phase)
    (high : r.phase ≤ 4095) : step s =
      .next ((s.withPort items).startSequence .setFreq
        (setFreqWords s.cfg s.dev.mode r.chan tw r.phase) (setFreqPend s r.freqHz r.chan r.phase)) := by
  have fits : (tw.toNat : Int) ≤ maxTuningWord := by
    have := tw.isLt
    unfold maxTuningWord
    omega
  refine step_accepts noReset idle presented ?_
  rw [decodePort, decodeCommand_of_setFreq op, exec_setFreq,
    setFreqRule_run ready clock pos given fits low high, clampTuningWord_natCast_toNat, presented]
  rfl

theorem step_accepts_setMode {m : WaveformMode} (noReset : s.resetInput = false) (idle : s.seq = .idle)
    (ready : s.ctl = .ready) (presented : s.port = .command r :: items) (op : r.op = 0b10)
    (mode : modeOfCode r.mode = some m) : step s =
      .next ((s.withPort items).startSequence .setMode (setModeWords s m) (setModePend s m)) := by
  refine step_accepts noReset idle presented ?_
  rw [decodePort, decodeCommand_of_setMode op, exec_setMode, setModeRule_run ready mode, presented]
  rfl

theorem step_accepts_shutdown (noReset : s.resetInput = false) (idle : s.seq = .idle)
    (ready : s.ctl = .ready) (presented : s.port = .command r :: items) (op : r.op = 0b11) : step s =
      .next ((s.withPort items).startSequence .shutdown [resetWord s.cfg] shutdownPend) := by
  refine step_accepts noReset idle presented ?_
  rw [decodePort, decodeCommand_of_shutdown op, exec_shutdown, shutdownRule_run ready, presented]
  rfl

theorem lineNames_decodePort (m : WaveformMode) (f : Rat) :
    LineNames f (decodePort (.line (.waveform m f))) m := by
  cases m <;> simp [LineNames, decodePort, decodeLine]

theorem step_accepts_line {m : WaveformMode} {f : Rat} (noReset : s.resetInput = false)
    (idle : s.seq = .idle) (ready : s.ctl = .ready) (presented : s.port = .line (.waveform m f) :: items) :
    step s = .next ((s.withPort (lineSetFreq f :: items)).startSequence .setMode (setModeWords s m)
      (setModePend s m)) := by
  refine step_accepts noReset idle presented ?_
  rw [exec_of_lineNames (lineNames_decodePort m f), setModeRule_run ready (modeOfCode_modeCode m),
    presented]
  rfl

end Sys2Proof.Machine
end

section
/-! Whole commands (R145), each its acceptance followed by its commit or its abort. -/

namespace Sys2Proof

open Machine

/-- Settles O39: INIT's two words answered, or an error at either. -/
theorem initRuns : Obligations.InitRuns := by
  intro s r items rest e noReset idle state presented op pos
  have accepted := step_accepts_init noReset idle state presented op pos
  have len : (initWords s.cfg).length ≤ 5 := by simp [initWords]
  refine ⟨fun answers => ?both, fun answers => ?first, fun answers => ?second⟩
  case both =>
    obtain ⟨t, run, ends⟩ := run_commits accepted noReset (by decide) (by simp [initWords]) len answers
    exact ⟨t, run, ends.ctl, ends.dev, ends.clock, ends.status, ends.errStep, ends.errCause, ends.seq,
      ends.trace, ends.port, ends.answers, ends.log⟩
  case first =>
    obtain ⟨t, run, ends⟩ := run_aborts (k := 0) accepted noReset (by decide) len rfl answers
    refine ⟨t, run, ends.ctl, ends.dev, ends.clock, ends.status, ends.errStep, ends.errCause, ends.seq, ?_⟩
    simpa using ends.trace
  case second =>
    obtain ⟨t, run, ends⟩ := run_aborts (k := 1) accepted noReset (by decide) len rfl answers
    refine ⟨t, run, ends.ctl, ends.dev, ends.clock, ends.status, ends.errStep, ends.errCause, ends.seq, ?_⟩
    simpa [initWords, okEvent] using ends.trace

/-- Settles O40: SET_FREQ's five words answered. -/
theorem setFreqWritesFiveWordsAndCommits : Obligations.SetFreqWritesFiveWordsAndCommits := by
  intro s r items rest clk tw noReset idle ready clock presented op pos given low high answers
  obtain ⟨t, run, ends⟩ := run_commits
    (step_accepts_setFreq noReset idle ready clock presented op pos given low high) noReset (by decide)
    (by simp [setFreqWords]) (by simp [setFreqWords]) answers
  have dev : t.dev = s.dev.setChannel r.chan r.freqHz (phaseField r.phase) := ends.dev
  refine ⟨t, run, ends.trace, ends.ctl, ends.clock, ?_, ?_, ?_, ?_, ?_, ends.status, ends.errStep,
    ends.errCause, ends.seq, ends.port, ends.answers, ends.log, ends.cfg⟩
  · rw [dev, DeviceState.setChannel_mode]
  · rw [dev, DeviceState.setChannel_chan]
  · rw [dev, DeviceState.setChannel_freq, if_pos rfl]
  · rw [dev, DeviceState.setChannel_phase, if_pos rfl, phaseField]
  · intro c other
    rw [dev, DeviceState.setChannel_freq, DeviceState.setChannel_phase, if_neg other, if_neg other]
    exact ⟨rfl, rfl⟩

/-- Settles O41: an error at any of SET_FREQ's five words. -/
theorem setFreqAbortsAtEachWrite : Obligations.SetFreqAbortsAtEachWrite := by
  intro s r items rest clk tw k e noReset idle ready clock presented op pos given low high inside answers
  have word := List.getElem?_eq_getElem (l := setFreqWords s.cfg s.dev.mode r.chan tw r.phase) inside
  obtain ⟨t, run, ends⟩ := run_aborts
    (step_accepts_setFreq noReset idle ready clock presented op pos given low high) noReset (by decide)
    (by simp [setFreqWords]) word answers
  have events : setFreqEvents s.cfg s.dev.mode r.chan tw r.phase =
    (setFreqWords s.cfg s.dev.mode r.chan tw r.phase).map (okEvent s.cfg) := rfl
  refine ⟨t, run, ?_, ends.ctl.trans ready, ends.dev, ends.clock, ends.status, ?_, ends.errCause, ends.seq,
    ends.port, ends.answers, ends.log⟩
  · rw [ends.trace, events, ← List.map_take, List.getElem?_map, word]
    rfl
  · rw [ends.errStep, BitVec.toNat_add, BitVec.toNat_ofNat]
    simp only [BitVec.reduceToNat]
    omega

/-- Settles O42: SET_MODE's one word, either answer. -/
theorem setModeRuns : Obligations.SetModeRuns := by
  intro s r m items a rest noReset idle ready presented op mode answers
  have accepted := step_accepts_setMode noReset idle ready presented op mode
  have len : (setModeWords s m).length ≤ 5 := by simp [setModeWords]
  cases a with
  | ok =>
    obtain ⟨t, run, ends⟩ := run_commits accepted noReset (by decide) (by simp [setModeWords]) len answers
    exact ⟨t, run, ends.trace, ends.ctl.trans ready, ends.clock, ends.seq, ends.port, ends.answers,
      fun _ => ⟨ends.dev, ends.status, ends.errStep, ends.errCause⟩, nofun⟩
  | err e =>
    obtain ⟨t, run, ends⟩ := run_aborts (k := 0) accepted noReset (by decide) len rfl answers
    refine ⟨t, run, by simpa using ends.trace, ends.ctl.trans ready, ends.clock, ends.seq, ends.port,
      ends.answers, nofun, ?_⟩
    rintro _ ⟨⟩
    exact ⟨ends.dev, ends.status, ends.errStep, ends.errCause⟩

/-- Settles O43: SHUTDOWN's one word, either answer. -/
theorem shutdownRuns : Obligations.ShutdownRuns := by
  intro s r items a rest noReset idle ready presented op answers
  have run := run_command (k := 0) (step_accepts_shutdown noReset idle ready presented op) noReset
    (by simp) rfl answers
  refine ⟨_, run, ?_⟩
  cases a with
  | ok =>
    rw [takeAnswer_ok_of_shutdown rfl rfl]
    simp [State.delivered, shutdownPend, DeviceState.defaults]
  | err e =>
    rw [takeAnswer_err_of_shutdown e rfl]
    simp [State.delivered, shutdownPend, DeviceState.defaults]

/-- Settles O44: a SET_MODE's run and then a SET_FREQ's, whose words carry the mode just committed. -/
theorem waveformLineRuns : Obligations.WaveformLineRuns := by
  intro s m f clk items rest tw noReset idle ready clock presented pos given answers
  obtain ⟨u, modeRun, modeEnds⟩ := run_commits (step_accepts_line noReset idle ready presented) noReset
    (by decide) (by simp [setModeWords]) (by simp [setModeWords]) answers
  have dev : u.dev = { s.dev with mode := m } := modeEnds.dev
  have cfg : u.cfg = s.cfg := modeEnds.cfg
  obtain ⟨t, freqRun, ends⟩ := run_commits
    (step_accepts_setFreq (tw := tw) (modeEnds.resetInput.trans noReset) modeEnds.seq
      (modeEnds.ctl.trans ready) (modeEnds.clock.trans clock) modeEnds.port rfl pos
      (cfg ▸ given) le_rfl (show (0 : Int) ≤ 4095 by decide))
    (modeEnds.resetInput.trans noReset) (by decide) (by simp [setFreqWords]) (by simp [setFreqWords])
    modeEnds.answers
  refine ⟨t, (run_add modeRun).trans freqRun, ?_, ends.ctl, ends.clock.trans modeEnds.clock, ?_,
    ends.status, ends.seq, ends.port, ends.answers, ends.log.trans modeEnds.log⟩
  · calc t.trace
        = u.trace ++ setFreqEvents u.cfg u.dev.mode 0 tw 0 := ends.trace
      _ = s.trace ++ [okEvent s.cfg (controlWord s.cfg m s.dev.chan)] ++ setFreqEvents s.cfg m 0 tw 0 := by
        rw [modeEnds.trace, dev, cfg]
        rfl
      _ = s.trace ++ ⟨s.cfg.csId, controlWord s.cfg m s.dev.chan, .ok⟩ :: setFreqEvents s.cfg m 0 tw 0 :=
        List.append_assoc _ _ _
  · calc t.dev = u.dev.setChannel 0 f (phaseField 0) := ends.dev
      _ = { s.dev with mode := m, chan := 0, freq0 := f, phase0 := 0 } := by rw [dev]; rfl

end Sys2Proof
end
